-- ==== Sys2Proof/Word.lean ====
section
/-! DEFINITION. The value types of the engine (spec 00_scope.md R7 to R10, 10_state.md R20 to R23): bytes, key-schedule
words, blocks, schedules, the 128-bit buses and the direction of a transform. -/

namespace Sys2Proof

/-- A byte: eight bits, bit 7 the most significant (R7, R8). As a field element it stands for a polynomial (R8). -/
abbrev Byte := BitVec 8

/-- A key-schedule word: four bytes `w[0]` to `w[3]`, never a 32-bit number (20_memory.md R53). -/
abbrev Word := Vector Byte 4

/-- A block: sixteen bytes, row `r` and column `c` of the matrix at index `r + 4 * c` (00_scope.md R9). -/
abbrev Block := Vector Byte 16

/-- A round-key schedule: eleven round keys of sixteen bytes (10_state.md R23). -/
abbrev Schedule := Vector Block 11

/-- One of the two 128-bit buses, `din` or `dout` (10_state.md R32). -/
abbrev Bus := BitVec 128

/-- The direction every round transform takes (00_scope.md R10): bit 0 is `forward`, bit 1 is `inverse`. -/
inductive Direction where
  | forward
  | inverse
  deriving DecidableEq, Repr

/-- The word whose byte `k` is `f k`. -/
def Word.ofFn (f : Fin 4 → Byte) : Word :=
  #v[f 0, f 1, f 2, f 3]

/-- The block whose byte `i` is `f i`. -/
def Block.ofFn (f : Fin 16 → Byte) : Block :=
  #v[f 0, f 1, f 2, f 3, f 4, f 5, f 6, f 7, f 8, f 9, f 10, f 11, f 12, f 13, f 14, f 15]

/-- The schedule whose round key `r` is `f r`. -/
def Schedule.ofFn (f : Fin 11 → Block) : Schedule :=
  #v[f 0, f 1, f 2, f 3, f 4, f 5, f 6, f 7, f 8, f 9, f 10]

/-- Sixteen zero bytes. -/
def Block.zero : Block := Block.ofFn fun _ => 0x00#8

/-- Eleven round keys of zero bytes (only a reset value: notes/assumptions/2.md). -/
def Schedule.zero : Schedule := Schedule.ofFn fun _ => Block.zero

end Sys2Proof
end

