-- ==== Sys2Proof/Syntax.lean ====
section
/-! DEFINITION. The fourteen commands of the opcode map (30_encoding.md R75), one constructor per row of
spec/opcode_table.json, and the names the spec gives them (R80). -/

namespace Sys2Proof

/-- A command. The data operand `din` is not part of it (30_encoding.md R70): a command reads it from the input port.
The index of RDRK and ADDRK is the raw 4-bit field, because 11 to 15 decode to the command too (R73). -/
inductive Instr where
  | gfmul
  | keyexp
  | ldst
  | rdst
  | rdrk (idx : BitVec 4)
  | subbytesF
  | subbytesI
  | shiftrowsF
  | shiftrowsI
  | mixcolsF
  | mixcolsI
  | addrk (idx : BitVec 4)
  | encrypt
  | decrypt
  deriving DecidableEq, Repr

/-- The mnemonic of a command, as 30_encoding.md R80 and the opcode table spell it. -/
def Instr.mnemonic : Instr → String
  | .gfmul => "GFMUL"
  | .keyexp => "KEYEXP"
  | .ldst => "LDST"
  | .rdst => "RDST"
  | .rdrk _ => "RDRK"
  | .subbytesF => "SUBBYTES.F"
  | .subbytesI => "SUBBYTES.I"
  | .shiftrowsF => "SHIFTROWS.F"
  | .shiftrowsI => "SHIFTROWS.I"
  | .mixcolsF => "MIXCOLS.F"
  | .mixcolsI => "MIXCOLS.I"
  | .addrk _ => "ADDRK"
  | .encrypt => "ENCRYPT"
  | .decrypt => "DECRYPT"

end Sys2Proof
end

