-- ==== Sys2Proof/WellFormed.lean ====
section
/-! DEFINITION. Well-formed commands: the legal ones. The only field that can be out of range is the round-key index of
RDRK and ADDRK, legal from 0 to 10 (30_encoding.md R73, 20_memory.md R56). -/

namespace Sys2Proof

/-- A round-key number in the legal range 0 to 10 (30_encoding.md R73). -/
def legalIndex (idx : BitVec 4) : Bool := idx.toNat ≤ 10

/-- A legal command: one of the 34 whose bytes 30_encoding.md R76 lists. -/
def Instr.wf : Instr → Bool
  | .gfmul => true
  | .keyexp => true
  | .ldst => true
  | .rdst => true
  | .rdrk idx => legalIndex idx
  | .subbytesF => true
  | .subbytesI => true
  | .shiftrowsF => true
  | .shiftrowsI => true
  | .mixcolsF => true
  | .mixcolsI => true
  | .addrk idx => legalIndex idx
  | .encrypt => true
  | .decrypt => true

end Sys2Proof
end

