-- ==== Sys2Proof/Decode.lean ====
section
/-! DEFINITION. Decoding, total on every byte (30_encoding.md R70 to R77), and the encoder. -/

namespace Sys2Proof

/-- Why a byte is no command. -/
inductive Reject where
  | noByte          -- there is no byte to decode
  | reservedOp      -- `op` is 0x0 or 0xB to 0xF (30_encoding.md R77)
  | reservedArgN    -- format N with `arg ≠ 0000` (R71)
  | reservedArgD    -- format D with `arg[3:1] ≠ 000` (R72)
  deriving DecidableEq, Repr

/-- The major opcode `op = cmd[7:4]` (R70). -/
def opField (cmd : Byte) : BitVec 4 := cmd.extractLsb' 4 4

/-- The argument `arg = cmd[3:0]` (R70). -/
def argField (cmd : Byte) : BitVec 4 := cmd.extractLsb' 0 4

/-- Format N: the argument is zero or the byte is reserved (R71). -/
def formatN (arg : BitVec 4) (i : Instr) : Except Reject Instr :=
  if arg = 0b0000#4 then .ok i else .error .reservedArgN

/-- Format D: `arg[3:1]` is zero or the byte is reserved, and `arg[0]` selects the direction (R72). -/
def formatD (arg : BitVec 4) (i : Direction → Instr) : Except Reject Instr :=
  if arg.extractLsb' 1 3 = 0b000#3 then
    .ok (i (if arg.getLsbD 0 then .inverse else .forward))
  else .error .reservedArgD

/-- `decode` of 30_encoding.md R76, row by row. -/
def decode (cmd : Byte) : Except Reject Instr :=
  let arg := argField cmd
  match (opField cmd).toNat with
  | 0x1 => formatN arg .gfmul
  | 0x2 => formatN arg .keyexp
  | 0x3 => formatN arg .ldst
  | 0x4 => formatN arg .rdst
  | 0x5 => .ok (.rdrk arg)
  | 0x6 => formatD arg fun | .forward => .subbytesF | .inverse => .subbytesI
  | 0x7 => formatD arg fun | .forward => .shiftrowsF | .inverse => .shiftrowsI
  | 0x8 => formatD arg fun | .forward => .mixcolsF | .inverse => .mixcolsI
  | 0x9 => .ok (.addrk arg)
  | 0xA => formatD arg fun | .forward => .encrypt | .inverse => .decrypt
  | _ => .error .reservedOp

/-- Decoding the first command of a list of bytes: every command is exactly one byte (R70, R79). -/
def decodeBytes : List Byte → Except Reject (Instr × List Byte)
  | [] => .error .noByte
  | cmd :: rest => (decode cmd).map fun i => (i, rest)

/-- The command byte of a command, from the opcode map (30_encoding.md R75). -/
def encode : Instr → Byte
  | .gfmul => 0x10#8
  | .keyexp => 0x20#8
  | .ldst => 0x30#8
  | .rdst => 0x40#8
  | .rdrk idx => 0x5#4 ++ idx
  | .subbytesF => 0x60#8
  | .subbytesI => 0x61#8
  | .shiftrowsF => 0x70#8
  | .shiftrowsI => 0x71#8
  | .mixcolsF => 0x80#8
  | .mixcolsI => 0x81#8
  | .addrk idx => 0x9#4 ++ idx
  | .encrypt => 0xA0#8
  | .decrypt => 0xA1#8

/-- The bytes of a command as they are sent: one byte (R70). -/
def encodeBytes (i : Instr) : List Byte := [encode i]

/-- The `match` column of 30_encoding.md R75. -/
def rowMatch : Instr → Byte
  | .gfmul => 0x10#8
  | .keyexp => 0x20#8
  | .ldst => 0x30#8
  | .rdst => 0x40#8
  | .rdrk _ => 0x50#8
  | .subbytesF => 0x60#8
  | .subbytesI => 0x61#8
  | .shiftrowsF => 0x70#8
  | .shiftrowsI => 0x71#8
  | .mixcolsF => 0x80#8
  | .mixcolsI => 0x81#8
  | .addrk _ => 0x90#8
  | .encrypt => 0xA0#8
  | .decrypt => 0xA1#8

/-- The `mask` column of 30_encoding.md R75: the index field of format K is free, every other row is one byte. -/
def rowMask : Instr → Byte
  | .gfmul => 0xFF#8
  | .keyexp => 0xFF#8
  | .ldst => 0xFF#8
  | .rdst => 0xFF#8
  | .rdrk _ => 0xF0#8
  | .subbytesF => 0xFF#8
  | .subbytesI => 0xFF#8
  | .shiftrowsF => 0xFF#8
  | .shiftrowsI => 0xFF#8
  | .mixcolsF => 0xFF#8
  | .mixcolsI => 0xFF#8
  | .addrk _ => 0xF0#8
  | .encrypt => 0xFF#8
  | .decrypt => 0xFF#8

/-- The first `n` bytes of `w`, the least significant first. -/
def bytesOfNat : Nat → Nat → List Byte
  | 0, _ => []
  | n + 1, w => BitVec.ofNat 8 w :: bytesOfNat n (w / 256)

/-- The command the decoder reads from an opcode-table word of `nbits` bits: all of its bytes are the command's. -/
def decodeTableWord (nbits w : Nat) : Option Instr :=
  match decodeBytes (bytesOfNat (nbits / 8) w) with
  | .ok (i, []) => some i
  | .ok (_, _ :: _) => none
  | .error _ => none

end Sys2Proof
end

