-- ==== Sys2Proof/Config.lean ====
section
/-! DEFINITION. The free values: what the spec leaves unspecified while the engine goes on (10_state.md R22, R24, R34,
R35; 93_implementation_defined.md U1, U2, U14). They have no body, so no proof can learn a value of them. The engine has
no other configuration (00_scope.md R2, R5, R6; the open `LATENCY(cmd)` is read by no rule, R206). -/

namespace Sys2Proof

/-- The bytes `STATE` holds once its content is unspecified: after ENCRYPT and DECRYPT (44_cipher_pipeline.md R166, R167)
and after a reset (10_state.md R34). The arguments are the model's draw counter and everything the bytes could come from,
the data bus, the old `STATE` and the old `RK`: "the bytes may be anything, including the old key and the old block"
(70_reset_and_hazards.md R197), so no proof may conclude that they are erased or independent of a secret.
DESIGN CHOICE, safe: notes/assumptions/3.md. -/
opaque Config.unspecifiedBlock : Nat → Bus → Block → Schedule → Block

/-- The bytes `RK` holds once its content is unspecified: after a reset (10_state.md R34), with the same arguments as
`Config.unspecifiedBlock`. DESIGN CHOICE, safe: notes/assumptions/3.md. -/
opaque Config.unspecifiedSchedule : Nat → Bus → Block → Schedule → Schedule

end Sys2Proof
end

