-- ==== Sys2Proof/Machine/State.lean ====
section
/-! DEFINITION. The state of the engine (10_state.md R20 to R34) with its ports and the host's pending moves, the reasons
a step can stop, and the state after reset. -/

namespace Sys2Proof.Machine

/-- The four causes a command can be refused for, each with a code of its own that `FAULT` can hold
(60_exceptions.md R175). -/
inductive Cause where
  | rsvd      -- E_RSVD: the command byte is a reserved encoding
  | idx       -- E_IDX: RDRK or ADDRK with an index of 11 to 15
  | noKey     -- E_NOKEY: the command reads RK and RK_VALID = 0
  | noState   -- E_NOSTATE: the command reads STATE and ST_VALID = 0
  deriving DecidableEq, Repr

/-- The response of a command: the error code and the data result on the two output ports (10_state.md R31 to R33). -/
structure Response where
  err  : BitVec 3
  dout : Bus
  deriving DecidableEq, Repr

/-- What the host can do (70_reset_and_hazards.md R208): issue a command with its data operand, sample the status output,
or assert `rst`. A command presented together with `rst` is carried by the reset, which does not execute it (R195, R184). -/
inductive HostMove where
  | issue (cmd : Byte) (din : Bus)
  | sampleStatus
  | reset (presented : Option (Byte × Bus))
  deriving DecidableEq, Repr

/-- The state. `STATE` to `FAULT` are the five items of 10_state.md R20. `cmd` and `din` are the values on the input ports
for the command in progress, `response` is the response the last command gave since reset (`none` before the first, when
the ports are unspecified, R34). `host` and `draws` are the model's own: what the host will do next, in order (R61), and
the counter the free values of `Config` are drawn with (notes/assumptions/3.md). -/
structure State where
  STATE    : Block
  ST_VALID : Bool
  RK       : Schedule
  RK_VALID : Bool
  FAULT    : BitVec 3
  cmd      : Byte
  din      : Bus
  response : Option Response
  host     : List HostMove
  draws    : Nat
  deriving DecidableEq, Repr

/-- The fault outcomes of 60_exceptions.md R192, one for each refusal code. `step` and `exec` never answer one, because the
spec describes what a refusal does to the state (R178, R179) and they take it. `Sys2Proof.Machine.runOutcome` in Safety.lean
answers them: the view in which a refused command ends the run. Stopping there is safe: it proves less, never something
false. -/
inductive Fault where
  /-- Raised by `runOutcome` for a reserved command byte (code 1). Safe. -/
  | rsvd
  /-- Raised by `runOutcome` for a round-key index of 11 to 15 (code 2). Safe. -/
  | idx
  /-- Raised by `runOutcome` for a command that reads `RK` while `RK_VALID = 0` (code 3). Safe. -/
  | noKey
  /-- Raised by `runOutcome` for a command that reads `STATE` while `ST_VALID = 0` (code 4). Safe. -/
  | noState
  /-- Raised by `runOutcome` for a command issued while `FAULT ≠ 0` (code 5). Safe. -/
  | halted
  deriving DecidableEq, Repr

/-- The refusals of the model. "Nothing needs `refuse` by the model" (60_exceptions.md R192): no step answers one. -/
inductive Refusal where
  /-- An instruction without a meaning, raised by an arm of `exec`: no arm raises it now. Safe. -/
  | notModelled (mnemonic : String)
  deriving DecidableEq, Repr

/-- The state right after reset (10_state.md R34): `FAULT`, `ST_VALID` and `RK_VALID` are 0 and no response has been given.
`STATE` and `RK` are unspecified there and zero here, and so are the two input ports: DESIGN CHOICE, unsafe,
notes/assumptions/2.md. No host move is pending: notes/assumptions/4.md. -/
def State.reset : State where
  STATE := Block.zero
  ST_VALID := false
  RK := Schedule.zero
  RK_VALID := false
  FAULT := 0#3
  cmd := 0x00#8
  din := 0#128
  response := none
  host := []
  draws := 0

end Sys2Proof.Machine
end

