-- ==== Sys2Proof/Machine/Flags.lean ====
section
/-! DEFINITION. The flag-like fields: error codes (60_exceptions.md R175), the halted condition (R179) and the status
output (10_state.md R26). What sets and clears `ST_VALID`, `RK_VALID` and `FAULT` is in Ops.lean and the families. -/

namespace Sys2Proof.Machine

/-- The code of an accepted command (R175). -/
def okCode : BitVec 3 := 0#3

/-- The code of a refusal cause, which `FAULT` and `err` take (R175). -/
def Cause.code : Cause → BitVec 3
  | .rsvd => 1#3
  | .idx => 2#3
  | .noKey => 3#3
  | .noState => 4#3

/-- `E_HALTED`, only ever a response code (R175). -/
def haltedCode : BitVec 3 := 5#3

/-- The engine is halted: `FAULT ≠ 0` (R179). -/
def State.halted (s : State) : Bool := s.FAULT != 0#3

/-- The status output: bits 4:2 `FAULT`, bit 1 `ST_VALID`, bit 0 `RK_VALID` (10_state.md R26). -/
def State.status (s : State) : BitVec 5 :=
  s.FAULT ++ BitVec.ofBool s.ST_VALID ++ BitVec.ofBool s.RK_VALID

end Sys2Proof.Machine
end

