-- ==== Sys2Proof/Machine/Operands.lean ====
section
/-! DEFINITION. Operand forms (30_encoding.md R74, 20_memory.md R52, R56): the bytes of the data operand, the result on
`dout`, the round-key index. The direction operand is in the constructors of `Instr`. -/

namespace Sys2Proof.Machine

/-- The block on a bus: `D[i] = din[127 - 8i : 120 - 8i]` (20_memory.md R52). -/
def blockOfBus (d : Bus) : Block :=
  Block.ofFn fun i => d.extractLsb' (120 - 8 * i.val) 8

/-- The bus value of a block, byte 0 in the most significant lane (20_memory.md R52). -/
def busOfBlock (B : Block) : Bus :=
  B[0] ++ B[1] ++ B[2] ++ B[3] ++ B[4] ++ B[5] ++ B[6] ++ B[7] ++
    B[8] ++ B[9] ++ B[10] ++ B[11] ++ B[12] ++ B[13] ++ B[14] ++ B[15]

/-- A result of one byte: in byte 0 of `dout`, the other bytes zero (20_memory.md R57). -/
def busOfByte (p : Byte) : Bus :=
  busOfBlock (Block.ofFn fun i => if i = 0 then p else 0x00#8)

/-- Sixteen zero bytes, the `dout` of a command without a data result and of a refused one (10_state.md R33). -/
def zeroBus : Bus := 0#128

/-- The data operand as a block: `D[0]` to `D[15]` (30_encoding.md R74). -/
def State.operand (s : State) : Block := blockOfBus s.din

/-- The round-key number of an index field: 0 to 10, or `none` for the illegal 11 to 15 (30_encoding.md R73, R74). -/
def roundKeyNumber (idx : BitVec 4) : Option (Fin 11) :=
  if h : idx.toNat < 11 then some ⟨idx.toNat, h⟩ else none

end Sys2Proof.Machine
end

