-- ==== Sys2Proof/Machine/Ops.lean ====
section
/-! DEFINITION. The named operations every meaning is made of: register writes, responses, taking a fault
(60_exceptions.md R178, R179), leaving it by reset (70_reset_and_hazards.md R195), and the admission every command starts
with (60_exceptions.md R176). -/

namespace Sys2Proof.Machine

/-! ## Register writes -/

/-- `STATE <- B`: all sixteen bytes at once (20_memory.md R58). -/
def State.setSTATE (s : State) (B : Block) : State := { s with STATE := B }

/-- `ST_VALID <- v`. -/
def State.setST_VALID (s : State) (v : Bool) : State := { s with ST_VALID := v }

/-- `RK <- K`: all 176 bytes at once (10_state.md R23). -/
def State.setRK (s : State) (K : Schedule) : State := { s with RK := K }

/-- `RK_VALID <- v`. -/
def State.setRK_VALID (s : State) (v : Bool) : State := { s with RK_VALID := v }

/-- `FAULT <- c`. -/
def State.setFAULT (s : State) (c : BitVec 3) : State := { s with FAULT := c }

/-- `respond(err, dout)` (00_scope.md R12). -/
def State.respond (s : State) (err : BitVec 3) (dout : Bus) : State := { s with response := some ⟨err, dout⟩ }

/-- The response of an accepted command (10_state.md R33). -/
def State.accept (s : State) (dout : Bus) : State := s.respond okCode dout

/-- `STATE` becomes unspecified: a fresh free value (10_state.md R22). -/
def State.loseSTATE (s : State) : State :=
  { s with STATE := Config.unspecifiedBlock s.draws s.din s.STATE s.RK, draws := s.draws + 1 }

/-! ## The host's moves -/

/-- The host presents a command: the input ports take its byte and its data operand (10_state.md R31, R32). -/
def State.present (s : State) (cmd : Byte) (din : Bus) : State := { s with cmd := cmd, din := din }

/-- The host's list of moves becomes `rest`. -/
def State.setHost (s : State) (rest : List HostMove) : State := { s with host := rest }

/-- A command presented together with `rst` stands on the ports and nothing more (70_reset_and_hazards.md R195). -/
def State.presentWithReset (s : State) : Option (Byte × Bus) → State
  | none => s
  | some (cmd, din) => s.present cmd din

/-! ## Faults and reset -/

/-- Fault entry, `raise Fault(code)` (60_exceptions.md R178): `FAULT` takes the code, nothing else of the state changes, the
response carries the code and zero data. Nothing is saved and no handler is entered. -/
def State.raiseFault (s : State) (c : Cause) : State := (s.setFAULT c.code).respond c.code zeroBus

/-- The answer of a halted engine (60_exceptions.md R179): `E_HALTED` and zero data, no state changes. -/
def State.refuseHalted (s : State) : State := s.respond haltedCode zeroBus

/-- Reset, the only way back from a fault (60_exceptions.md R180, 70_reset_and_hazards.md R195): the state of
10_state.md R34. `STATE` and `RK` become unspecified, not erased (R197), and no response stands any more. -/
def State.takeReset (s : State) : State :=
  { s with
    STATE := Config.unspecifiedBlock s.draws s.din s.STATE s.RK
    ST_VALID := false
    RK := Config.unspecifiedSchedule s.draws s.din s.STATE s.RK
    RK_VALID := false
    FAULT := 0#3
    response := none
    draws := s.draws + 1 }

/-! ## Admission -/

/-- What a command must be checked for (the table of 60_exceptions.md R176). `encoding` is the cause that the command byte
alone gives: a reserved encoding (check 2) or an illegal index (check 3). -/
structure Needs where
  encoding : Option Cause := none
  rk       : Bool := false
  st       : Bool := false
  deriving DecidableEq, Repr

/-- What admission decides about a command. -/
inductive Admission where
  | accepted
  | halted
  | raise (c : Cause)
  deriving DecidableEq, Repr

/-- R176 of 60_exceptions.md: the checks in their fixed order, the first that fails decides. -/
def admission (n : Needs) (s : State) : Admission :=
  if s.halted then .halted
  else match n.encoding with
    | some c => .raise c
    | none =>
      if n.rk && !s.RK_VALID then .raise .noKey
      else if n.st && !s.ST_VALID then .raise .noState
      else .accepted

/-- One command as one atomic step (10_state.md R31): admission, then its effect or its refusal. -/
def command (n : Needs) (effect : State → State) (s : State) : Host.Outcome State Fault Refusal :=
  match admission n s with
  | .accepted => .next (effect s)
  | .halted => .next s.refuseHalted
  | .raise c => .next (s.raiseFault c)

/-- A command byte that alone decides the refusal: its effect is never reached. -/
def refuse (c : Cause) (s : State) : Host.Outcome State Fault Refusal :=
  command { encoding := some c } (fun s => s) s

/-- A round transform on the state register (43_round_transforms.md R135): `STATE` becomes `f` of its old value, all sixteen
bytes, `ST_VALID` stays 1, the response carries zero data. -/
def transform (f : Block → Block) (s : State) : Host.Outcome State Fault Refusal :=
  command { st := true } (fun s => (s.setSTATE (f s.STATE)).accept zeroBus) s

end Sys2Proof.Machine
end

