-- ==== Sys2Proof/Machine/GaloisField.lean ====
section
/-! DEFINITION. The multiplier of GF(2^8) with its reduction (40_galois_field.md R90 to R93) and the command GFMUL (R99).
Addition of field elements is `^^^` on bytes (R91). -/

namespace Sys2Proof.Machine

/-- The loop of `Multiply` (40_galois_field.md R92): `n` iterations from the accumulator `acc` and the operands `a`, `b`. -/
def multiplyLoop : (n : Nat) → (acc a b : Byte) → Byte
  | 0, acc, _, _ => acc
  | n + 1, acc, a, b =>
    let acc := if b.getLsbD 0 then acc ^^^ a else acc
    let b := b >>> 1
    let hi := a.getLsbD 7
    let a := a <<< 1
    let a := if hi then a ^^^ 0x1B#8 else a
    multiplyLoop n acc a b

/-- `Multiply(a, b)`: always eight iterations (40_galois_field.md R92). -/
def multiply (a b : Byte) : Byte := multiplyLoop 8 0x00#8 a b

/-- GFMUL (40_galois_field.md R99): the product of `D[0]` and `D[1]` in byte 0 of the response, no state written. -/
def execGfmul (s : State) : Host.Outcome State Fault Refusal :=
  command {} (fun s => s.accept (busOfByte (multiply s.operand[0] s.operand[1]))) s

end Sys2Proof.Machine
end

