-- ==== Sys2Proof/Machine/Rom.lean ====
section
/-! DEFINITION. The nine read-only tables (10_state.md R27) with the contents the spec lists (40_galois_field.md R97,
41_sbox.md R114 and R115, 42_key_schedule.md R123), and the two builders that define those contents, `BuildMultiplierTable`
(40_galois_field.md R96) and `GenerateSboxes` (41_sbox.md R110). The tables are constants, not state (40_galois_field.md R98,
41_sbox.md R117), and no command runs a builder. -/

namespace Sys2Proof.Machine

/-- The eight byte tables (10_state.md R27). -/
inductive Table where
  | sbox
  | invsbox
  | mul2
  | mul3
  | mul9
  | mul11
  | mul13
  | mul14
  deriving DecidableEq, Repr

/-- `SBOX`, one number a row, the entry for index `0xHL` in row `H`, byte `L` from the left (41_sbox.md R114). -/
def sboxRows : Vector (BitVec 128) 16 := #v[
  0x637C777BF26B6FC53001672BFED7AB76#128,
  0xCA82C97DFA5947F0ADD4A2AF9CA472C0#128,
  0xB7FD9326363FF7CC34A5E5F171D83115#128,
  0x04C723C31896059A071280E2EB27B275#128,
  0x09832C1A1B6E5AA0523BD6B329E32F84#128,
  0x53D100ED20FCB15B6ACBBE394A4C58CF#128,
  0xD0EFAAFB434D338545F9027F503C9FA8#128,
  0x51A3408F929D38F5BCB6DA2110FFF3D2#128,
  0xCD0C13EC5F974417C4A77E3D645D1973#128,
  0x60814FDC222A908846EEB814DE5E0BDB#128,
  0xE0323A0A4906245CC2D3AC629195E479#128,
  0xE7C8376D8DD54EA96C56F4EA657AAE08#128,
  0xBA78252E1CA6B4C6E8DD741F4BBD8B8A#128,
  0x703EB5664803F60E613557B986C11D9E#128,
  0xE1F8981169D98E949B1E87E9CE5528DF#128,
  0x8CA1890DBFE6426841992D0FB054BB16#128]

/-- `INVSBOX`, one number a row, the entry for index `0xHL` in row `H`, byte `L` from the left (41_sbox.md R115). -/
def invsboxRows : Vector (BitVec 128) 16 := #v[
  0x52096AD53036A538BF40A39E81F3D7FB#128,
  0x7CE339829B2FFF87348E4344C4DEE9CB#128,
  0x547B9432A6C2233DEE4C950B42FAC34E#128,
  0x082EA16628D924B2765BA2496D8BD125#128,
  0x72F8F66486689816D4A45CCC5D65B692#128,
  0x6C704850FDEDB9DA5E154657A78D9D84#128,
  0x90D8AB008CBCD30AF7E45805B8B34506#128,
  0xD02C1E8FCA3F0F02C1AFBD0301138A6B#128,
  0x3A9111414F67DCEA97F2CFCEF0B4E673#128,
  0x96AC7422E7AD3585E2F937E81C75DF6E#128,
  0x47F11A711D29C5896FB7620EAA18BE1B#128,
  0xFC563E4BC6D279209ADBC0FE78CD5AF4#128,
  0x1FDDA8338807C731B11210592780EC5F#128,
  0x60517FA919B54A0D2DE57A9F93C99CEF#128,
  0xA0E03B4DAE2AF5B0C8EBBB3C83539961#128,
  0x172B047EBA77D626E169146355210C7D#128]

/-- `MUL2`, one number a row, the entry for index `0xHL` in row `H`, byte `L` from the left (40_galois_field.md R97). -/
def mul2Rows : Vector (BitVec 128) 16 := #v[
  0x00020406080A0C0E10121416181A1C1E#128,
  0x20222426282A2C2E30323436383A3C3E#128,
  0x40424446484A4C4E50525456585A5C5E#128,
  0x60626466686A6C6E70727476787A7C7E#128,
  0x80828486888A8C8E90929496989A9C9E#128,
  0xA0A2A4A6A8AAACAEB0B2B4B6B8BABCBE#128,
  0xC0C2C4C6C8CACCCED0D2D4D6D8DADCDE#128,
  0xE0E2E4E6E8EAECEEF0F2F4F6F8FAFCFE#128,
  0x1B191F1D131117150B090F0D03010705#128,
  0x3B393F3D333137352B292F2D23212725#128,
  0x5B595F5D535157554B494F4D43414745#128,
  0x7B797F7D737177756B696F6D63616765#128,
  0x9B999F9D939197958B898F8D83818785#128,
  0xBBB9BFBDB3B1B7B5ABA9AFADA3A1A7A5#128,
  0xDBD9DFDDD3D1D7D5CBC9CFCDC3C1C7C5#128,
  0xFBF9FFFDF3F1F7F5EBE9EFEDE3E1E7E5#128]

/-- `MUL3`, one number a row, the entry for index `0xHL` in row `H`, byte `L` from the left (40_galois_field.md R97). -/
def mul3Rows : Vector (BitVec 128) 16 := #v[
  0x000306050C0F0A09181B1E1D14171211#128,
  0x303336353C3F3A39282B2E2D24272221#128,
  0x606366656C6F6A69787B7E7D74777271#128,
  0x505356555C5F5A59484B4E4D44474241#128,
  0xC0C3C6C5CCCFCAC9D8DBDEDDD4D7D2D1#128,
  0xF0F3F6F5FCFFFAF9E8EBEEEDE4E7E2E1#128,
  0xA0A3A6A5ACAFAAA9B8BBBEBDB4B7B2B1#128,
  0x909396959C9F9A99888B8E8D84878281#128,
  0x9B989D9E97949192838085868F8C898A#128,
  0xABA8ADAEA7A4A1A2B3B0B5B6BFBCB9BA#128,
  0xFBF8FDFEF7F4F1F2E3E0E5E6EFECE9EA#128,
  0xCBC8CDCEC7C4C1C2D3D0D5D6DFDCD9DA#128,
  0x5B585D5E57545152434045464F4C494A#128,
  0x6B686D6E67646162737075767F7C797A#128,
  0x3B383D3E37343132232025262F2C292A#128,
  0x0B080D0E07040102131015161F1C191A#128]

/-- `MUL9`, one number a row, the entry for index `0xHL` in row `H`, byte `L` from the left (40_galois_field.md R97). -/
def mul9Rows : Vector (BitVec 128) 16 := #v[
  0x0009121B242D363F48415A536C657E77#128,
  0x9099828BB4BDA6AFD8D1CAC3FCF5EEE7#128,
  0x3B3229201F160D04737A6168575E454C#128,
  0xABA2B9B08F869D94E3EAF1F8C7CED5DC#128,
  0x767F646D525B40493E372C251A130801#128,
  0xE6EFF4FDC2CBD0D9AEA7BCB58A839891#128,
  0x4D445F5669607B72050C171E2128333A#128,
  0xDDD4CFC6F9F0EBE2959C878EB1B8A3AA#128,
  0xECE5FEF7C8C1DAD3A4ADB6BF8089929B#128,
  0x7C756E6758514A43343D262F1019020B#128,
  0xD7DEC5CCF3FAE1E89F968D84BBB2A9A0#128,
  0x474E555C636A71780F061D142B223930#128,
  0x9A938881BEB7ACA5D2DBC0C9F6FFE4ED#128,
  0x0A0318112E273C35424B5059666F747D#128,
  0xA1A8B3BA858C979EE9E0FBF2CDC4DFD6#128,
  0x3138232A151C070E79706B625D544F46#128]

/-- `MUL11`, one number a row, the entry for index `0xHL` in row `H`, byte `L` from the left (40_galois_field.md R97). -/
def mul11Rows : Vector (BitVec 128) 16 := #v[
  0x000B161D2C273A3158534E45747F6269#128,
  0xB0BBA6AD9C978A81E8E3FEF5C4CFD2D9#128,
  0x7B706D66575C414A2328353E0F041912#128,
  0xCBC0DDD6E7ECF1FA9398858EBFB4A9A2#128,
  0xF6FDE0EBDAD1CCC7AEA5B8B38289949F#128,
  0x464D505B6A617C771E1508033239242F#128,
  0x8D869B90A1AAB7BCD5DEC3C8F9F2EFE4#128,
  0x3D362B20111A070C656E737849425F54#128,
  0xF7FCE1EADBD0CDC6AFA4B9B28388959E#128,
  0x474C515A6B607D761F1409023338252E#128,
  0x8C879A91A0ABB6BDD4DFC2C9F8F3EEE5#128,
  0x3C372A21101B060D646F727948435E55#128,
  0x010A171C2D263B3059524F44757E6368#128,
  0xB1BAA7AC9D968B80E9E2FFF4C5CED3D8#128,
  0x7A716C67565D404B2229343F0E051813#128,
  0xCAC1DCD7E6EDF0FB9299848FBEB5A8A3#128]

/-- `MUL13`, one number a row, the entry for index `0xHL` in row `H`, byte `L` from the left (40_galois_field.md R97). -/
def mul13Rows : Vector (BitVec 128) 16 := #v[
  0x000D1A1734392E236865727F5C51464B#128,
  0xD0DDCAC7E4E9FEF3B8B5A2AF8C81969B#128,
  0xBBB6A1AC8F829598D3DEC9C4E7EAFDF0#128,
  0x6B66717C5F524548030E1914373A2D20#128,
  0x6D60777A5954434E05081F12313C2B26#128,
  0xBDB0A7AA8984939ED5D8CFC2E1ECFBF6#128,
  0xD6DBCCC1E2EFF8F5BEB3A4A98A87909D#128,
  0x060B1C11323F28256E6374795A57404D#128,
  0xDAD7C0CDEEE3F4F9B2BFA8A5868B9C91#128,
  0x0A07101D3E332429626F7875565B4C41#128,
  0x616C7B7655584F420904131E3D30272A#128,
  0xB1BCABA685889F92D9D4C3CEEDE0F7FA#128,
  0xB7BAADA0838E9994DFD2C5C8EBE6F1FC#128,
  0x676A7D70535E49440F0215183B36212C#128,
  0x0C01161B3835222F64697E73505D4A47#128,
  0xDCD1C6CBE8E5F2FFB4B9AEA3808D9A97#128]

/-- `MUL14`, one number a row, the entry for index `0xHL` in row `H`, byte `L` from the left (40_galois_field.md R97). -/
def mul14Rows : Vector (BitVec 128) 16 := #v[
  0x000E1C123836242A707E6C624846545A#128,
  0xE0EEFCF2D8D6C4CA909E8C82A8A6B4BA#128,
  0xDBD5C7C9E3EDFFF1ABA5B7B9939D8F81#128,
  0x3B352729030D1F114B455759737D6F61#128,
  0xADA3B1BF959B8987DDD3C1CFE5EBF9F7#128,
  0x4D43515F757B69673D33212F050B1917#128,
  0x76786A644E40525C06081A143E30222C#128,
  0x96988A84AEA0B2BCE6E8FAF4DED0C2CC#128,
  0x414F5D537977656B313F2D230907151B#128,
  0xA1AFBDB39997858BD1DFCDC3E9E7F5FB#128,
  0x9A948688A2ACBEB0EAE4F6F8D2DCCEC0#128,
  0x7A746668424C5E500A041618323C2E20#128,
  0xECE2F0FED4DAC8C69C92808EA4AAB8B6#128,
  0x0C02101E343A28267C72606E444A5856#128,
  0x37392B250F01131D47495B557F71636D#128,
  0xD7D9CBC5EFE1F3FDA7A9BBB59F91838D#128]

/-- The rows of a byte table. -/
def Table.rows : Table → Vector (BitVec 128) 16
  | .sbox => sboxRows
  | .invsbox => invsboxRows
  | .mul2 => mul2Rows
  | .mul3 => mul3Rows
  | .mul9 => mul9Rows
  | .mul11 => mul11Rows
  | .mul13 => mul13Rows
  | .mul14 => mul14Rows

/-- `Rom(T, i)`: entry `i` of a byte table (00_scope.md R12). Every index is in range (20_memory.md R56). -/
def rom (T : Table) (i : Byte) : Byte :=
  (T.rows[i.toNat / 16]'(by have := i.isLt; omega)).extractLsb' (120 - 8 * (i.toNat % 16)) 8

/-- `RCON`, the entries for indices 1 to 10 (42_key_schedule.md R123). -/
def rconTable : Vector Byte 10 :=
  #v[0x01#8, 0x02#8, 0x04#8, 0x08#8, 0x10#8, 0x20#8, 0x40#8, 0x80#8, 0x1B#8, 0x36#8]

/-- `Rom(RCON, j)` for `j` from 1 to 10: there is no entry 0 and none above 10 (42_key_schedule.md R123). -/
def rcon (j : Nat) (h : 1 ≤ j ∧ j ≤ 10) : Byte := rconTable[j - 1]

/-! ## The builders -/

/-- `BuildMultiplierTable(n)`: `table[i] = Multiply(i, n)` (40_galois_field.md R96). -/
def buildMultiplierTable (n : Byte) : Vector Byte 256 :=
  Vector.ofFn fun i => multiply (BitVec.ofNat 8 i.val) n

/-- `rotl8(q, n)`: rotation of the eight bits toward the most significant end (00_scope.md R11). -/
def rotl8 (q : Byte) (n : Nat) : Byte := (q <<< n) ||| (q >>> (8 - n))

/-- The affine step of the S-box generator (41_sbox.md R110, R112). -/
def affine (q : Byte) : Byte :=
  q ^^^ rotl8 q 1 ^^^ rotl8 q 2 ^^^ rotl8 q 3 ^^^ rotl8 q 4 ^^^ 0x63#8

/-- The repeat-until loop of `GenerateSboxes` (41_sbox.md R110): `p` is compared with 1 after the body. `fuel` bounds the
rounds; the body runs 255 times (R111). -/
def generateLoop : (fuel : Nat) → (p q : Byte) → (sbox inv : Vector Byte 256) → Vector Byte 256 × Vector Byte 256
  | 0, _, _, sbox, inv => (sbox, inv)
  | fuel + 1, p, q, sbox, inv =>
    let p := multiply p 0x03#8
    let q := multiply q 0xF6#8
    let a := affine q
    let sbox := sbox.set p.toNat a p.isLt
    let inv := inv.set a.toNat p a.isLt
    if p = 0x01#8 then (sbox, inv) else generateLoop fuel p q sbox inv

/-- `GenerateSboxes()` (41_sbox.md R110), the pair (`Sbox`, `InverseSbox`). Every entry is written: the loop writes all but
`Sbox[0x00]` and `InverseSbox[0x63]` (R111, R113), so what the tables hold at first does not matter. -/
def generateSboxes : Vector Byte 256 × Vector Byte 256 :=
  let empty : Vector Byte 256 := Vector.replicate 256 0x00#8
  let built := generateLoop 255 0x01#8 0x01#8 empty empty
  (built.1.set 0x00 0x63#8, built.2.set 0x63 0x00#8)

end Sys2Proof.Machine
end

