-- ==== Sys2Proof/Machine/KeySchedule.lean ====
section
/-! DEFINITION. The key schedule expander (42_key_schedule.md R120 to R124) and its commands KEYEXP (R127) and RDRK
(R128). -/

namespace Sys2Proof.Machine

/-- Byte-by-byte exclusive-or of two words (00_scope.md R11). -/
def xorWord (a b : Word) : Word := Word.ofFn fun k => a[k] ^^^ b[k]

/-- `RotWord`: the first byte moves to the end (42_key_schedule.md R121). -/
def rotWord (t : Word) : Word := #v[t[1], t[2], t[3], t[0]]

/-- `SubWord`: each byte through `SBOX`, never `INVSBOX` (42_key_schedule.md R122). -/
def subWord (t : Word) : Word := Word.ofFn fun k => rom .sbox t[k]

/-- Word `i` for `i` from 4 to 43, from `w[i-1]` and `w[i-4]` (42_key_schedule.md R120). The round constant meets byte 0
only (R123). -/
def nextWord (i : Nat) (h : 4 ≤ i ∧ i < 44) (prev back4 : Word) : Word :=
  if i % 4 = 0 then
    let t := subWord (rotWord prev)
    let t : Word := #v[t[0] ^^^ rcon (i / 4) (by omega), t[1], t[2], t[3]]
    xorWord back4 t
  else xorWord back4 prev

/-- The first `n + 4` words, in increasing order of the index (42_key_schedule.md R120). -/
def expandWords (key : Block) : (n : Nat) → n ≤ 40 → Vector Word (n + 4)
  | 0, _ => #v[#v[key[0], key[1], key[2], key[3]], #v[key[4], key[5], key[6], key[7]],
      #v[key[8], key[9], key[10], key[11]], #v[key[12], key[13], key[14], key[15]]]
  | n + 1, h =>
    let w := expandWords key n (by omega)
    w.push (nextWord (n + 4) (by omega) w[n + 3] w[n])

/-- The 44 words of `KeyExpansion(key)` (42_key_schedule.md R120). -/
def keyWords (key : Block) : Vector Word 44 := expandWords key 40 (Nat.le_refl 40)

/-- `RoundKey(r)` of 44 words: `RoundKey(r)[4j + k] = w[4r + j][k]` (42_key_schedule.md R124, 20_memory.md R54). -/
def roundKeyOfWords (w : Vector Word 44) (r : Fin 11) : Block :=
  Block.ofFn fun i => (w[4 * r.val + i.val / 4]'(by omega))[i.val % 4]'(by omega)

/-- `KeyExpansion(key)` as eleven round keys (42_key_schedule.md R124). -/
def keyExpansion (key : Block) : Schedule :=
  let w := keyWords key
  Schedule.ofFn fun r => roundKeyOfWords w r

/-- KEYEXP (42_key_schedule.md R127): `RK` becomes the schedule of the key on `din`, `RK_VALID` becomes 1. -/
def execKeyexp (s : State) : Host.Outcome State Fault Refusal :=
  command {} (fun s => ((s.setRK (keyExpansion s.operand)).setRK_VALID true).accept zeroBus) s

/-- RDRK (42_key_schedule.md R128): the round key of the index in the response, no state written. The index is checked
before the key. -/
def execRdrk (idx : BitVec 4) (s : State) : Host.Outcome State Fault Refusal :=
  match roundKeyNumber idx with
  | none => refuse .idx s
  | some r => command { rk := true } (fun s => s.accept (busOfBlock s.RK[r])) s

end Sys2Proof.Machine
end

