-- ==== Sys2Proof/Machine/RoundTransforms.lean ====
section
/-! DEFINITION. The round transforms (43_round_transforms.md R138, R142, R146, R147, R151) as functions on blocks, and the
commands on the state register: LDST, RDST, SUBBYTES, SHIFTROWS, MIXCOLS, ADDRK (R135 to R153). -/

namespace Sys2Proof.Machine

/-- `SubBytes(B, direction)`: each byte through `SBOX` or `INVSBOX` (43_round_transforms.md R138). -/
def subBytes : Direction → Block → Block
  | .forward, B => Block.ofFn fun i => rom .sbox B[i]
  | .inverse, B => Block.ofFn fun i => rom .invsbox B[i]

/-- The block whose row `r` and column `c` is `f r c`, at index `r + 4c` (00_scope.md R9). -/
def blockOfMatrix (f : (r c : Fin 4) → Byte) : Block :=
  Block.ofFn fun i => f ⟨i.val % 4, by omega⟩ ⟨i.val / 4, by omega⟩

/-- Row `r` and column `c` of a block (00_scope.md R9). -/
def matrixAt (B : Block) (r c : Fin 4) : Byte := B[r.val + 4 * c.val]

/-- `ShiftRows(B, direction)`: row `r` rotates left (forward) or right (inverse) by `r` bytes (43_round_transforms.md R142).
`+` and `-` on columns are modulo 4. -/
def shiftRows : Direction → Block → Block
  | .forward, B => blockOfMatrix fun r c => matrixAt B r (c + r)
  | .inverse, B => blockOfMatrix fun r c => matrixAt B r (c - r)

/-- The block whose column `c` is `f` of the four bytes of column `c` of `B` (43_round_transforms.md R146). -/
def mapColumns (f : (a0 a1 a2 a3 : Byte) → Word) (B : Block) : Block :=
  blockOfMatrix fun r c => (f (matrixAt B 0 c) (matrixAt B 1 c) (matrixAt B 2 c) (matrixAt B 3 c))[r]

/-- One column of forward MixColumns (43_round_transforms.md R146). -/
def mixColumnForward (a0 a1 a2 a3 : Byte) : Word := #v[
  rom .mul2 a0 ^^^ rom .mul3 a1 ^^^ a2 ^^^ a3,
  a0 ^^^ rom .mul2 a1 ^^^ rom .mul3 a2 ^^^ a3,
  a0 ^^^ a1 ^^^ rom .mul2 a2 ^^^ rom .mul3 a3,
  rom .mul3 a0 ^^^ a1 ^^^ a2 ^^^ rom .mul2 a3]

/-- One column of inverse MixColumns (43_round_transforms.md R147). -/
def mixColumnInverse (a0 a1 a2 a3 : Byte) : Word := #v[
  rom .mul14 a0 ^^^ rom .mul11 a1 ^^^ rom .mul13 a2 ^^^ rom .mul9 a3,
  rom .mul9 a0 ^^^ rom .mul14 a1 ^^^ rom .mul11 a2 ^^^ rom .mul13 a3,
  rom .mul13 a0 ^^^ rom .mul9 a1 ^^^ rom .mul14 a2 ^^^ rom .mul11 a3,
  rom .mul11 a0 ^^^ rom .mul13 a1 ^^^ rom .mul9 a2 ^^^ rom .mul14 a3]

/-- `MixColumns(B, direction)` (43_round_transforms.md R146, R147). -/
def mixColumns : Direction → Block → Block
  | .forward, B => mapColumns mixColumnForward B
  | .inverse, B => mapColumns mixColumnInverse B

/-- `AddRoundKey(B, K)`: byte by byte exclusive-or (43_round_transforms.md R151). -/
def addRoundKey (B K : Block) : Block := Block.ofFn fun i => B[i] ^^^ K[i]

/-- LDST (43_round_transforms.md R136): `STATE` becomes the block on `din`, `ST_VALID` becomes 1. -/
def execLdst (s : State) : Host.Outcome State Fault Refusal :=
  command {} (fun s => ((s.setSTATE s.operand).setST_VALID true).accept zeroBus) s

/-- RDST (43_round_transforms.md R137): `STATE` in the response, no state written. -/
def execRdst (s : State) : Host.Outcome State Fault Refusal :=
  command { st := true } (fun s => s.accept (busOfBlock s.STATE)) s

/-- SUBBYTES.F (43_round_transforms.md R140). -/
def execSubbytesF (s : State) : Host.Outcome State Fault Refusal := transform (subBytes .forward) s

/-- SUBBYTES.I (43_round_transforms.md R141). -/
def execSubbytesI (s : State) : Host.Outcome State Fault Refusal := transform (subBytes .inverse) s

/-- SHIFTROWS.F (43_round_transforms.md R144). -/
def execShiftrowsF (s : State) : Host.Outcome State Fault Refusal := transform (shiftRows .forward) s

/-- SHIFTROWS.I (43_round_transforms.md R145). -/
def execShiftrowsI (s : State) : Host.Outcome State Fault Refusal := transform (shiftRows .inverse) s

/-- MIXCOLS.F (43_round_transforms.md R149). -/
def execMixcolsF (s : State) : Host.Outcome State Fault Refusal := transform (mixColumns .forward) s

/-- MIXCOLS.I (43_round_transforms.md R150). -/
def execMixcolsI (s : State) : Host.Outcome State Fault Refusal := transform (mixColumns .inverse) s

/-- ADDRK (43_round_transforms.md R153): `STATE` becomes `STATE` plus the round key of the index. The index is checked
before the key and the key before the state. -/
def execAddrk (idx : BitVec 4) (s : State) : Host.Outcome State Fault Refusal :=
  match roundKeyNumber idx with
  | none => refuse .idx s
  | some r =>
    command { rk := true, st := true } (fun s => (s.setSTATE (addRoundKey s.STATE s.RK[r])).accept zeroBus) s

end Sys2Proof.Machine
end

