-- ==== Sys2Proof/Machine/CipherPipeline.lean ====
section
/-! DEFINITION. The encrypt and decrypt pipeline, stage by stage (44_cipher_pipeline.md R160 to R163), and the commands
ENCRYPT (R166) and DECRYPT (R167). The eleven stages run inside one step: the stage number and the intermediate blocks are
no state (10_state.md R29, 44_cipher_pipeline.md R169). -/

namespace Sys2Proof.Machine

/-- `EncStage(i, s, K)` for `i` from 0 to 10 (44_cipher_pipeline.md R161). -/
def encStage (i : Fin 11) (s K : Block) : Block :=
  if i = 0 then addRoundKey s K
  else if i = 10 then addRoundKey (shiftRows .forward (subBytes .forward s)) K
  else addRoundKey (mixColumns .forward (shiftRows .forward (subBytes .forward s))) K

/-- The block after the first `n` encrypt stages; stage `i` consumes `RK[i]` (44_cipher_pipeline.md R160). -/
def encStages (P : Block) (RK : Schedule) : (n : Nat) → n ≤ 11 → Block
  | 0, _ => P
  | n + 1, h => encStage ⟨n, h⟩ (encStages P RK n (by omega)) RK[n]

/-- `Encrypt(P, RK)`: eleven stages (44_cipher_pipeline.md R160). -/
def encryptBlock (P : Block) (RK : Schedule) : Block := encStages P RK 11 (Nat.le_refl 11)

/-- `DecStage(j, s, K)` for `j` from 0 to 10 (44_cipher_pipeline.md R163). -/
def decStage (j : Fin 11) (s K : Block) : Block :=
  if j = 0 then addRoundKey s K
  else if j = 10 then addRoundKey (subBytes .inverse (shiftRows .inverse s)) K
  else mixColumns .inverse (addRoundKey (subBytes .inverse (shiftRows .inverse s)) K)

/-- The block after the first `n` decrypt stages; stage `j` consumes `RK[10 - j]` (44_cipher_pipeline.md R162). -/
def decStages (C : Block) (RK : Schedule) : (n : Nat) → n ≤ 11 → Block
  | 0, _ => C
  | n + 1, h => decStage ⟨n, h⟩ (decStages C RK n (by omega)) RK[10 - n]

/-- `Decrypt(C, RK)`: eleven stages with the same schedule (44_cipher_pipeline.md R162). -/
def decryptBlock (C : Block) (RK : Schedule) : Block := decStages C RK 11 (Nat.le_refl 11)

/-- ENCRYPT (44_cipher_pipeline.md R166): the ciphertext of the block on `din` in the response. `STATE` was the working
block: its content is unspecified afterwards and `ST_VALID` becomes 0. -/
def execEncrypt (s : State) : Host.Outcome State Fault Refusal :=
  command { rk := true }
    (fun s => (s.loseSTATE.setST_VALID false).accept (busOfBlock (encryptBlock s.operand s.RK))) s

/-- DECRYPT (44_cipher_pipeline.md R167): the plaintext of the block on `din` in the response, the rest as for ENCRYPT. -/
def execDecrypt (s : State) : Host.Outcome State Fault Refusal :=
  command { rk := true }
    (fun s => (s.loseSTATE.setST_VALID false).accept (busOfBlock (decryptBlock s.operand s.RK))) s

end Sys2Proof.Machine
end

