-- ==== Sys2Proof/Machine/Dispatch.lean ====
section
/-! DEFINITION. The meaning of each command, one arm per constructor of `Instr`. -/

namespace Sys2Proof.Machine

def exec (i : Instr) (s : State) : Host.Outcome State Fault Refusal :=
  match i with
  | .gfmul => Sys2Proof.Machine.execGfmul s
  | .keyexp => Sys2Proof.Machine.execKeyexp s
  | .ldst => Sys2Proof.Machine.execLdst s
  | .rdst => Sys2Proof.Machine.execRdst s
  | .rdrk idx => Sys2Proof.Machine.execRdrk idx s
  | .subbytesF => Sys2Proof.Machine.execSubbytesF s
  | .subbytesI => Sys2Proof.Machine.execSubbytesI s
  | .shiftrowsF => Sys2Proof.Machine.execShiftrowsF s
  | .shiftrowsI => Sys2Proof.Machine.execShiftrowsI s
  | .mixcolsF => Sys2Proof.Machine.execMixcolsF s
  | .mixcolsI => Sys2Proof.Machine.execMixcolsI s
  | .addrk idx => Sys2Proof.Machine.execAddrk idx s
  | .encrypt => Sys2Proof.Machine.execEncrypt s
  | .decrypt => Sys2Proof.Machine.execDecrypt s

end Sys2Proof.Machine
end

