-- ==== Sys2Proof/Machine/Step.lean ====
section
/-! DEFINITION. One step of the engine: the host's next move (70_reset_and_hazards.md R208, 20_memory.md R61). -/

namespace Sys2Proof.Machine

/-- The command on the input ports (10_state.md R31): the decoded command, or `E_RSVD` for a reserved byte
(60_exceptions.md R176). -/
def runCommand (s : State) : Host.Outcome State Fault Refusal :=
  match decode s.cmd with
  | .ok i => exec i s
  | .error _ => refuse .rsvd s

/-- One step. The engine fetches nothing (10_state.md R28): it takes the host's next move. Without one it holds its state
(60_exceptions.md R191). Sampling the status output changes nothing (10_state.md R26, R208). -/
def step (s : State) : Host.Outcome State Fault Refusal :=
  match s.host with
  | [] => .next s
  | .issue cmd din :: rest => runCommand ((s.setHost rest).present cmd din)
  | .sampleStatus :: rest => .next (s.setHost rest)
  | .reset presented :: rest => .next ((s.setHost rest).presentWithReset presented).takeReset

/-- `s` with the command of an opcode-table word as the host's next move, the data operand as it stands on the port: the next
step runs exactly that command (notes/assumptions/4.md). -/
def State.withFetchWord (s : State) (nbits w : Nat) : State :=
  match bytesOfNat (nbits / 8) w with
  | [] => s
  | cmd :: _ => s.setHost (.issue cmd s.din :: s.host)

end Sys2Proof.Machine
end

