-- ==== Sys2Proof/Safety.lean ====
section
/-! DEFINITION. What claims are stated in: runs and their end (70_reset_and_hazards.md R209), the premises of a claim
(R210), the order of commands a host owes (R198), the outcome a modeller may give a refusal (60_exceptions.md R192), the
invariant of the machine, and the states a host cannot tell apart (10_state.md R35). -/

namespace Sys2Proof.Machine

/-! ## Premises and the end of a run -/

/-- The engine is as right after a reset, whatever the unspecified bytes are (R210 (a), 10_state.md R34). -/
def State.Fresh (s : State) : Prop := s.FAULT = 0#3 ∧ s.ST_VALID = false ∧ s.RK_VALID = false

/-- The engine is keyed with `k` (R210 (c)). -/
def State.KeyedWith (s : State) (k : Block) : Prop := s.RK_VALID = true ∧ s.RK = keyExpansion k

/-- The engine is loaded with `B` (R210 (d)). -/
def State.LoadedWith (s : State) (B : Block) : Prop := s.ST_VALID = true ∧ s.STATE = B

/-- A program: commands with their data operands, fixed in advance (R209). -/
abbrev Program := List (Instr × Bus)

/-- The host issues a program, one command after the other (20_memory.md R61). -/
def State.withProgram (s : State) (p : Program) : State := s.setHost (p.map fun c => .issue (encode c.1) c.2)

/-- A finished run: the last command has responded and `FAULT = 0` (R209). -/
def State.Finished (s : State) : Prop := s.host = [] ∧ s.FAULT = 0#3

/-! ## The order of commands (R198) -/

/-- The commands since the last reset, the most recent first, contain a KEYEXP. -/
def keyedBy : List Instr → Bool
  | [] => false
  | .keyexp :: _ => true
  | _ :: past => keyedBy past

/-- The commands since the last reset, the most recent first, contain an LDST with no ENCRYPT or DECRYPT after the most
recent one. -/
def loadedBy : List Instr → Bool
  | [] => false
  | .ldst :: _ => true
  | .encrypt :: _ => false
  | .decrypt :: _ => false
  | _ :: past => loadedBy past

/-- A row of the table of R198: what the host must have issued before a command. The index of RDRK and ADDRK must be legal
too, which R198 does not name (30_encoding.md R73). -/
def orderAllows (past : List Instr) : Instr → Bool
  | .gfmul => true
  | .keyexp => true
  | .ldst => true
  | .rdst => loadedBy past
  | .rdrk idx => legalIndex idx && keyedBy past
  | .subbytesF => loadedBy past
  | .subbytesI => loadedBy past
  | .shiftrowsF => loadedBy past
  | .shiftrowsI => loadedBy past
  | .mixcolsF => loadedBy past
  | .mixcolsI => loadedBy past
  | .addrk idx => legalIndex idx && keyedBy past && loadedBy past
  | .encrypt => keyedBy past
  | .decrypt => keyedBy past

/-- Every command of a program is allowed by R198 after the commands before it, and has a legal index (30_encoding.md R73). -/
def programAllowed : (past : List Instr) → Program → Bool
  | _, [] => true
  | past, c :: p => orderAllows past c.1 && programAllowed (c.1 :: past) p

/-! ## The admission table (R176) -/

/-- A command whose index is out of range: RDRK or ADDRK with 11 to 15, the column `E_IDX` of the table. -/
def badIndex : Instr → Bool
  | .rdrk idx => 10 < idx.toNat
  | .addrk idx => 10 < idx.toNat
  | .gfmul | .keyexp | .ldst | .rdst | .subbytesF | .subbytesI | .shiftrowsF | .shiftrowsI | .mixcolsF | .mixcolsI
  | .encrypt | .decrypt => false

/-- The commands that read `RK`, the column `E_NOKEY` of the table. -/
def readsRK : Instr → Bool
  | .rdrk _ | .addrk _ | .encrypt | .decrypt => true
  | .gfmul | .keyexp | .ldst | .rdst | .subbytesF | .subbytesI | .shiftrowsF | .shiftrowsI | .mixcolsF | .mixcolsI => false

/-- The commands that read `STATE`, the column `E_NOSTATE` of the table. -/
def readsSTATE : Instr → Bool
  | .rdst | .subbytesF | .subbytesI | .shiftrowsF | .shiftrowsI | .mixcolsF | .mixcolsI | .addrk _ => true
  | .gfmul | .keyexp | .ldst | .rdrk _ | .encrypt | .decrypt => false

/-- The code a command answers with: the first of the checks of R176 that fails, 0 when none does. -/
def responseCode (i : Instr) (s : State) : BitVec 3 :=
  if s.FAULT ≠ 0#3 then 5#3
  else if badIndex i then 2#3
  else if readsRK i && !s.RK_VALID then 3#3
  else if readsSTATE i && !s.ST_VALID then 4#3
  else 0#3

/-- The reserved bytes, as 30_encoding.md R77 lists them. -/
def reservedByte (b : Byte) : Bool :=
  let n := b.toNat
  n < 0x10 || 0xB0 ≤ n ||
    (0x11 ≤ n && n ≤ 0x1F) || (0x21 ≤ n && n ≤ 0x2F) || (0x31 ≤ n && n ≤ 0x3F) || (0x41 ≤ n && n ≤ 0x4F) ||
    (0x62 ≤ n && n ≤ 0x6F) || (0x72 ≤ n && n ≤ 0x7F) || (0x82 ≤ n && n ≤ 0x8F) || (0xA2 ≤ n && n ≤ 0xAF)

/-- The code a command byte is answered with: check 1, then check 2, then those of the command (R176). -/
def byteCode (b : Byte) (s : State) : BitVec 3 :=
  if s.FAULT ≠ 0#3 then 5#3
  else match decode b with
    | .error _ => 1#3
    | .ok i => responseCode i s

/-! ## The nine-bit form of the multiplier (40_galois_field.md R93) -/

/-- The loop of `Multiply` on nine bits: shift, then exclusive-or with 0x11B if bit 8 is set (R93, 90_conflicts.md C4). -/
def multiplyNineBitLoop : (n : Nat) → (acc a : BitVec 9) → (b : Byte) → BitVec 9
  | 0, acc, _, _ => acc
  | n + 1, acc, a, b =>
    let acc := if b.getLsbD 0 then acc ^^^ a else acc
    let a := a <<< 1
    let a := if a.getLsbD 8 then a ^^^ 0x11B#9 else a
    multiplyNineBitLoop n acc a (b >>> 1)

/-- The nine-bit product of two bytes (R93). -/
def multiplyNineBit (a b : Byte) : BitVec 9 := multiplyNineBitLoop 8 0#9 (a.setWidth 9) b

/-! ## The rules of the commands of one shape -/

/-- What R140, R141, R144, R145, R149 and R150 say of one round-transform command `i` with the function `f` on blocks: refused
with `E_HALTED` while halted, with `E_NOSTATE` without a block, else `STATE` becomes `f` of its old value and the answer is
zero data. -/
def TransformRule (i : Instr) (f : Block → Block) : Prop :=
  ∀ s : State,
    (s.FAULT ≠ 0#3 → exec i s = .next { s with response := some ⟨5#3, 0#128⟩ }) ∧
    (s.FAULT = 0#3 → s.ST_VALID = false →
      exec i s = .next { s with FAULT := 4#3, response := some ⟨4#3, 0#128⟩ }) ∧
    (s.FAULT = 0#3 → s.ST_VALID = true →
      exec i s = .next { s with STATE := f s.STATE, response := some ⟨0#3, 0#128⟩ })

/-- What R166 and R167 say of a cipher command `i` with the function `f` of a block and a schedule: refused with `E_HALTED`
while halted, with `E_NOKEY` without a schedule, else it answers `f` of the block on `din` and the stored schedule, `ST_VALID`
becomes 0 and what `STATE` holds is left open. -/
def CipherRule (i : Instr) (f : Block → Schedule → Block) : Prop :=
  ∀ s : State,
    (s.FAULT ≠ 0#3 → exec i s = .next { s with response := some ⟨5#3, 0#128⟩ }) ∧
    (s.FAULT = 0#3 → s.RK_VALID = false →
      exec i s = .next { s with FAULT := 3#3, response := some ⟨3#3, 0#128⟩ }) ∧
    (s.FAULT = 0#3 → s.RK_VALID = true → ∃ B n, exec i s = .next { s with
      STATE := B, draws := n, ST_VALID := false, response := some ⟨0#3, busOfBlock (f (blockOfBus s.din) s.RK)⟩ })

/-! ## Outcomes (R192) -/

/-- The fault outcome of a response code, `none` for an accepted command (60_exceptions.md R175, R192). -/
def faultOfCode (err : BitVec 3) : Option Fault :=
  if err = okCode then none
  else if err = Cause.rsvd.code then some .rsvd
  else if err = Cause.idx.code then some .idx
  else if err = Cause.noKey.code then some .noKey
  else if err = Cause.noState.code then some .noState
  else some .halted

/-- The outcome R192 advises for a move of the host: a refused command is a fault carrying its code. The step itself goes on
with `FAULT` set (notes/assumptions/1.md). -/
def runOutcome (s : State) : Host.Outcome State Fault Refusal :=
  match s.host, step s with
  | .issue _ _ :: _, .next t =>
    match t.response with
    | some r =>
      match faultOfCode r.err with
      | some f => .fault f
      | none => .next t
    | none => .next t
  | _, o => o

/-! ## The invariant -/

/-- The last response fits the fault field: an accepted command leaves `FAULT` clear, a refusal reports the recorded code
(60_exceptions.md R178) or `E_HALTED` (R179) with zero data. -/
def Response.Fits (r : Response) (fault : BitVec 3) : Prop :=
  (r.err = okCode ∧ fault = 0#3) ∨ ((r.err = fault ∨ r.err = haltedCode) ∧ fault ≠ 0#3 ∧ r.dout = zeroBus)

/-- The invariant of the engine: `FAULT` never takes 5, 6 or 7 (10_state.md R25); while `RK_VALID` is 1, `RK` is a schedule
KEYEXP wrote, the expansion of some key (10_state.md R20, R24); the last response fits `FAULT`. -/
def State.Inv (s : State) : Prop :=
  s.FAULT.toNat ≤ 4 ∧ (s.RK_VALID = true → ∃ k, s.RK = keyExpansion k) ∧ ∀ r, s.response = some r → r.Fits s.FAULT

/-! ## What the host cannot tell apart -/

/-- Two states that agree on all that is specified: everything but the bytes of `STATE` while `ST_VALID = 0`, the bytes of
`RK` while `RK_VALID = 0` (10_state.md R35), and the model's draw counter. -/
def State.Agrees (s t : State) : Prop :=
  s.ST_VALID = t.ST_VALID ∧ (s.ST_VALID = true → s.STATE = t.STATE) ∧ s.RK_VALID = t.RK_VALID ∧
    (s.RK_VALID = true → s.RK = t.RK) ∧ s.FAULT = t.FAULT ∧ s.cmd = t.cmd ∧ s.din = t.din ∧ s.response = t.response ∧
    s.host = t.host

end Sys2Proof.Machine
end

