-- ==== Sys2Proof/Certificates/Slice0/Obligations.lean ====
section
/-! DEFINITION. The statements about the engine. Each docstring names the rule of spec/ it formalises. -/

open Sys2Proof Sys2Proof.Machine

/-! ## Encoding -/

/-- 30_encoding.md R75, R76: encoding and decoding agree, in both directions and for every operand value, the illegal indices
11 to 15 included: no bit of a command byte is dropped and no two bytes name one command. -/
def Obligations.DecodeAndEncodeAgree : Prop :=
  (∀ i : Instr, decode (encode i) = .ok i) ∧
  ∀ (b : Byte) (i : Instr), decode b = .ok i → encode i = b

/-- 30_encoding.md R80: the command bytes of the listing there, and two reserved bytes of R77. -/
def Obligations.DecodeOfListedBytes : Prop :=
  decode 0x10#8 = .ok .gfmul ∧ decode 0x20#8 = .ok .keyexp ∧ decode 0x30#8 = .ok .ldst ∧ decode 0x40#8 = .ok .rdst ∧
  decode 0x5A#8 = .ok (.rdrk 10#4) ∧ decode 0x60#8 = .ok .subbytesF ∧ decode 0x61#8 = .ok .subbytesI ∧
  decode 0x70#8 = .ok .shiftrowsF ∧ decode 0x71#8 = .ok .shiftrowsI ∧ decode 0x80#8 = .ok .mixcolsF ∧
  decode 0x81#8 = .ok .mixcolsI ∧ decode 0x90#8 = .ok (.addrk 0#4) ∧ decode 0xA0#8 = .ok .encrypt ∧
  decode 0xA1#8 = .ok .decrypt ∧ decode 0x00#8 = .error .reservedOp ∧ decode 0x62#8 = .error .reservedArgD

/-- 30_encoding.md R75: a byte selects a row of the opcode map exactly when it has the row's match under the row's mask. -/
def Obligations.DecodeSelectsRowByMask : Prop :=
  ∀ b : Byte,
    (∀ i : Instr, decode b = .ok i → b &&& rowMask i = rowMatch i) ∧
    (∀ i : Instr, b &&& rowMask i = rowMatch i → ∃ j, decode b = .ok j ∧ rowMatch j = rowMatch i ∧ rowMask j = rowMask i)

/-- 30_encoding.md R76: of the 256 byte values, 34 are legal commands, 10 decode to a command with an illegal index and 212
are reserved. -/
def Obligations.DecodeCountsOfR76 : Prop :=
  let bytes := (List.range 256).map (BitVec.ofNat 8)
  (bytes.countP fun b => match decode b with | .ok i => i.wf | .error _ => false) = 34 ∧
  (bytes.countP fun b => match decode b with | .ok i => !i.wf | .error _ => false) = 10 ∧
  (bytes.countP fun b => match decode b with | .ok _ => false | .error _ => true) = 212

/-! ## The step -/

/-- 10_state.md R31: when the host's next move issues a byte that decodes to a command, the step is that command's meaning
in the state whose ports hold the byte and the data operand and from which the move has been taken. -/
def Obligations.StepRunsTheDecodedCommand : Prop :=
  ∀ (s : State) (b : Byte) (d : Bus) (rest : List HostMove) (i : Instr),
    s.host = .issue b d :: rest → decode b = .ok i →
    step s = exec i { s with host := rest, cmd := b, din := d }

/-- 30_encoding.md R77: the reserved bytes are the listed ones, the decoder rejects exactly those, and the engine refuses each
with `E_RSVD` in the way of 60_exceptions.md R178. -/
def Obligations.ReservedBytesAreRefused : Prop :=
  (∀ b : Byte, (∃ e, decode b = .error e) ↔ reservedByte b = true) ∧
  ∀ (s : State) (b : Byte) (d : Bus) (rest : List HostMove),
    s.host = .issue b d :: rest → reservedByte b = true → s.FAULT = 0#3 →
    step s = .next { s with host := rest, cmd := b, din := d, FAULT := 1#3, response := some ⟨1#3, 0#128⟩ }

/-- 60_exceptions.md R179: a halted engine refuses every command, whatever its byte and data, with `E_HALTED` and zero data,
and nothing of its state changes. -/
def Obligations.HaltedEngineRefusesEveryByte : Prop :=
  ∀ (s : State) (b : Byte) (d : Bus) (rest : List HostMove),
    s.FAULT ≠ 0#3 → s.host = .issue b d :: rest →
    step s = .next { s with host := rest, cmd := b, din := d, response := some ⟨5#3, 0#128⟩ }

/-- 70_reset_and_hazards.md R195: reset, in every state, clears `FAULT`, `ST_VALID` and `RK_VALID`, and a command presented
with it is not executed and gets no response. No other move clears `FAULT` or `RK_VALID`. What `STATE` and `RK` hold after a
reset is not said. -/
def Obligations.ResetClearsFaultAndValidBits : Prop :=
  (∀ (s : State) (presented : Option (Byte × Bus)) (rest : List HostMove),
    s.host = .reset presented :: rest →
    ∃ t, step s = .next t ∧ t.FAULT = 0#3 ∧ t.ST_VALID = false ∧ t.RK_VALID = false ∧ t.response = none ∧ t.host = rest) ∧
  ∀ s t : State, step s = .next t →
    (s.FAULT ≠ 0#3 ∧ t.FAULT = 0#3) ∨ (s.RK_VALID = true ∧ t.RK_VALID = false) →
    ∃ presented rest, s.host = .reset presented :: rest

/-- 60_exceptions.md R191, 10_state.md R26, 70_reset_and_hazards.md R208: between commands the engine holds its state, and
sampling the status output changes nothing. That an empty list of moves idles and that the last response is held in the state
are the model's choices, notes/assumptions/4.md and 6.md. -/
def Obligations.EngineHoldsStateBetweenCommands : Prop :=
  (∀ s : State, s.host = [] → step s = .next s) ∧
  ∀ (s : State) (rest : List HostMove), s.host = .sampleStatus :: rest → step s = .next { s with host := rest }

/-- 10_state.md R31, 60_exceptions.md R192: every state has a step and it is a next state. Nothing is stuck. That a refusal
is a next state too is the model's choice, notes/assumptions/1.md. -/
def Obligations.EveryStateHasANextState : Prop :=
  ∀ s : State, ∃ t, step s = .next t

/-- 10_state.md R33, 60_exceptions.md R175: every command, accepted or refused, gives one response, its code is 0 to 5, and
a refusal carries zero data. -/
def Obligations.EveryCommandGivesAResponse : Prop :=
  ∀ (s : State) (b : Byte) (d : Bus) (rest : List HostMove),
    s.host = .issue b d :: rest →
    ∃ t r, step s = .next t ∧ t.response = some r ∧ r.err.toNat ≤ 5 ∧ (r.err ≠ 0#3 → r.dout = 0#128)

/-! ## Reset state, status, buses -/

/-- 10_state.md R34: the values it gives after reset. -/
def Obligations.ResetStateOfR34 : Prop :=
  State.reset.FAULT = 0#3 ∧ State.reset.ST_VALID = false ∧ State.reset.RK_VALID = false ∧ State.reset.status = 0b00000#5

/-- 10_state.md R26: bits 4:2 of the status output are `FAULT`, bit 1 is `ST_VALID`, bit 0 is `RK_VALID`. -/
def Obligations.StatusBits : Prop :=
  ∀ s : State, s.status.extractLsb' 2 3 = s.FAULT ∧ s.status.getLsbD 1 = s.ST_VALID ∧ s.status.getLsbD 0 = s.RK_VALID

/-- 20_memory.md R52: byte `i` of a block is lane `127 - 8i : 120 - 8i` of a bus, in both directions, and no bit of a bus is
lost. -/
def Obligations.BusLanes : Prop :=
  (∀ (d : Bus) (i : Nat) (h : i < 16), (blockOfBus d)[i] = d.extractLsb' (120 - 8 * i) 8) ∧
  (∀ (B : Block) (i : Nat) (h : i < 16), (busOfBlock B).extractLsb' (120 - 8 * i) 8 = B[i]) ∧
  (∀ d : Bus, busOfBlock (blockOfBus d) = d) ∧ ∀ B : Block, blockOfBus (busOfBlock B) = B

/-! ## Admission and faults -/

/-- 60_exceptions.md R176: every byte the host issues is answered with the code of the first check that fails, in the fixed
order halted, reserved, index, key, state, and with 0 when none fails. The same of every command on its own. -/
def Obligations.AdmissionOrder : Prop :=
  (∀ (s : State) (b : Byte) (d : Bus) (rest : List HostMove), s.host = .issue b d :: rest →
    ∃ t r, step s = .next t ∧ t.response = some r ∧ r.err = byteCode b s) ∧
  ∀ (i : Instr) (s : State), ∃ t r, exec i s = .next t ∧ t.response = some r ∧ r.err = responseCode i s

/-- 60_exceptions.md R178: a byte refused while `FAULT = 0` sets `FAULT` to its code, is answered with the code and zero data,
and has no other effect: the rest of the state is what it was when the byte was presented. -/
def Obligations.FaultEntryWritesOnlyFault : Prop :=
  ∀ (s : State) (b : Byte) (d : Bus) (rest : List HostMove),
    s.host = .issue b d :: rest → s.FAULT = 0#3 → byteCode b s ≠ 0#3 →
    step s = .next { s with
      host := rest, cmd := b, din := d, FAULT := byteCode b s, response := some ⟨byteCode b s, 0#128⟩ }

/-- 60_exceptions.md R180: once `FAULT` is non-zero only a reset changes it, a second violation does not, and after the reset
neither the key nor the block is valid any more. -/
def Obligations.OnlyResetLeavesTheHaltedCondition : Prop :=
  ∀ s t : State, step s = .next t → s.FAULT ≠ 0#3 → t.FAULT ≠ s.FAULT →
    t.FAULT = 0#3 ∧ t.RK_VALID = false ∧ t.ST_VALID = false ∧ ∃ presented rest, s.host = .reset presented :: rest

/-- 70_reset_and_hazards.md R208, R198, R209: from a fresh engine, a host that issues only commands allowed by R198, with
legal indices (30_encoding.md R73), and does not reset never sees a fault: every run of such a list of commands is finished. -/
def Obligations.HostKeepingTheOrderNeverFaults : Prop :=
  ∀ (s : State) (p : Program), s.Fresh → programAllowed [] p = true →
    ∃ t, Sys2Proof.core.run p.length (s.withProgram p) = .next t ∧ State.Finished t

/-- 60_exceptions.md R192, in the view `runOutcome`, for every byte the host issues: any byte is a fault while halted, a
reserved byte is a fault, an accepted command is a next state, the step's own, and a refused one is a fault carrying its code.
The view is the model's, notes/assumptions/1.md. -/
def Obligations.RunOutcomeOfEachResponse : Prop :=
  ∀ (s : State) (b : Byte) (d : Bus) (rest : List HostMove), s.host = .issue b d :: rest →
    (s.FAULT ≠ 0#3 → runOutcome s = .fault .halted) ∧
    (s.FAULT = 0#3 → reservedByte b = true → runOutcome s = .fault .rsvd) ∧
    ∀ i : Instr, decode b = .ok i →
      (responseCode i s = 0#3 → ∃ t, runOutcome s = .next t ∧ step s = .next t) ∧
      (responseCode i s = 2#3 → runOutcome s = .fault .idx) ∧ (responseCode i s = 3#3 → runOutcome s = .fault .noKey) ∧
      (responseCode i s = 4#3 → runOutcome s = .fault .noState) ∧ (responseCode i s = 5#3 → runOutcome s = .fault .halted)

/-! ## The commands -/

/-- 40_galois_field.md R99: GFMUL answers the product of `D[0]` and `D[1]` in byte 0 of `dout`, the other bytes zero, and
writes no state. It can be refused only while halted. -/
def Obligations.GfmulCommand : Prop :=
  ∀ s : State,
    (s.FAULT ≠ 0#3 → exec .gfmul s = .next { s with response := some ⟨5#3, 0#128⟩ }) ∧
    (s.FAULT = 0#3 → exec .gfmul s = .next { s with
      response := some ⟨0#3, multiply (s.din.extractLsb' 120 8) (s.din.extractLsb' 112 8) ++ 0#120⟩ })

/-- 42_key_schedule.md R127: KEYEXP writes the schedule of the key on `din` into `RK`, sets `RK_VALID` and answers zero data.
It can be refused only while halted. -/
def Obligations.KeyexpCommand : Prop :=
  ∀ s : State,
    (s.FAULT ≠ 0#3 → exec .keyexp s = .next { s with response := some ⟨5#3, 0#128⟩ }) ∧
    (s.FAULT = 0#3 → exec .keyexp s = .next { s with
      RK := keyExpansion (blockOfBus s.din), RK_VALID := true, response := some ⟨0#3, 0#128⟩ })

/-- 42_key_schedule.md R128: RDRK answers `RK[idx]` and writes no state. The index is checked before the key. -/
def Obligations.RdrkCommand : Prop :=
  ∀ (s : State) (idx : BitVec 4),
    (s.FAULT ≠ 0#3 → exec (.rdrk idx) s = .next { s with response := some ⟨5#3, 0#128⟩ }) ∧
    (s.FAULT = 0#3 → 10 < idx.toNat →
      exec (.rdrk idx) s = .next { s with FAULT := 2#3, response := some ⟨2#3, 0#128⟩ }) ∧
    (s.FAULT = 0#3 → idx.toNat ≤ 10 → s.RK_VALID = false →
      exec (.rdrk idx) s = .next { s with FAULT := 3#3, response := some ⟨3#3, 0#128⟩ }) ∧
    ∀ h : idx.toNat ≤ 10, s.FAULT = 0#3 → s.RK_VALID = true →
      exec (.rdrk idx) s = .next { s with response := some ⟨0#3, busOfBlock (s.RK[idx.toNat]'(by omega))⟩ }

/-- 43_round_transforms.md R136: LDST writes the block on `din` into `STATE`, sets `ST_VALID` and answers zero data. It can be
refused only while halted. -/
def Obligations.LdstCommand : Prop :=
  ∀ s : State,
    (s.FAULT ≠ 0#3 → exec .ldst s = .next { s with response := some ⟨5#3, 0#128⟩ }) ∧
    (s.FAULT = 0#3 → exec .ldst s = .next { s with
      STATE := blockOfBus s.din, ST_VALID := true, response := some ⟨0#3, 0#128⟩ })

/-- 43_round_transforms.md R137: RDST answers `STATE` and writes no state. -/
def Obligations.RdstCommand : Prop :=
  ∀ s : State,
    (s.FAULT ≠ 0#3 → exec .rdst s = .next { s with response := some ⟨5#3, 0#128⟩ }) ∧
    (s.FAULT = 0#3 → s.ST_VALID = false →
      exec .rdst s = .next { s with FAULT := 4#3, response := some ⟨4#3, 0#128⟩ }) ∧
    (s.FAULT = 0#3 → s.ST_VALID = true → exec .rdst s = .next { s with response := some ⟨0#3, busOfBlock s.STATE⟩ })

/-- 43_round_transforms.md R140, R141, R138: SUBBYTES.F replaces each byte of `STATE` by its `SBOX` entry, SUBBYTES.I by its
`INVSBOX` entry. -/
def Obligations.SubbytesCommands : Prop :=
  TransformRule .subbytesF (fun B => Block.ofFn fun i => rom .sbox B[i]) ∧
  TransformRule .subbytesI (fun B => Block.ofFn fun i => rom .invsbox B[i])

/-- 43_round_transforms.md R144, R145, R142: SHIFTROWS.F moves byte `SR[i]` of `STATE` to byte `i`, SHIFTROWS.I byte
`ISR[i]`, with the index tables of R142. -/
def Obligations.ShiftrowsCommands : Prop :=
  TransformRule .shiftrowsF (fun B =>
    #v[B[0], B[5], B[10], B[15], B[4], B[9], B[14], B[3], B[8], B[13], B[2], B[7], B[12], B[1], B[6], B[11]]) ∧
  TransformRule .shiftrowsI (fun B =>
    #v[B[0], B[13], B[10], B[7], B[4], B[1], B[14], B[11], B[8], B[5], B[2], B[15], B[12], B[9], B[6], B[3]])

/-- 43_round_transforms.md R149, R150, R146, R147: MIXCOLS.F and MIXCOLS.I replace each column of `STATE` by its product with
the matrix whose row `r` is {2,3,1,1}, {14,11,13,9}, rotated right by `r` places. -/
def Obligations.MixcolsCommands : Prop :=
  let product (base : Fin 4 → Byte) (B : Block) : Block := Block.ofFn fun i =>
    let m (k : Fin 4) : Byte := multiply (base (k - ⟨i.val % 4, by omega⟩)) (B[4 * (i.val / 4) + k.val]'(by omega))
    m 0 ^^^ m 1 ^^^ m 2 ^^^ m 3
  TransformRule .mixcolsF (product fun k => (#v[2#8, 3#8, 1#8, 1#8] : Word)[k]) ∧
  TransformRule .mixcolsI (product fun k => (#v[14#8, 11#8, 13#8, 9#8] : Word)[k])

/-- 43_round_transforms.md R153, R151: ADDRK adds `RK[idx]` to `STATE` byte by byte and answers zero data. The checks stand in
the order index, key, state. -/
def Obligations.AddrkCommand : Prop :=
  ∀ (s : State) (idx : BitVec 4),
    (s.FAULT ≠ 0#3 → exec (.addrk idx) s = .next { s with response := some ⟨5#3, 0#128⟩ }) ∧
    (s.FAULT = 0#3 → 10 < idx.toNat →
      exec (.addrk idx) s = .next { s with FAULT := 2#3, response := some ⟨2#3, 0#128⟩ }) ∧
    (s.FAULT = 0#3 → idx.toNat ≤ 10 → s.RK_VALID = false →
      exec (.addrk idx) s = .next { s with FAULT := 3#3, response := some ⟨3#3, 0#128⟩ }) ∧
    (s.FAULT = 0#3 → idx.toNat ≤ 10 → s.RK_VALID = true → s.ST_VALID = false →
      exec (.addrk idx) s = .next { s with FAULT := 4#3, response := some ⟨4#3, 0#128⟩ }) ∧
    ∀ h : idx.toNat ≤ 10, s.FAULT = 0#3 → s.RK_VALID = true → s.ST_VALID = true →
      exec (.addrk idx) s = .next { s with
        STATE := Block.ofFn fun i => s.STATE[i] ^^^ (s.RK[idx.toNat]'(by omega))[i]
        response := some ⟨0#3, 0#128⟩ }

/-- 44_cipher_pipeline.md R166: ENCRYPT. -/
def Obligations.EncryptCommand : Prop := CipherRule .encrypt encryptBlock

/-- 44_cipher_pipeline.md R167: DECRYPT. -/
def Obligations.DecryptCommand : Prop := CipherRule .decrypt decryptBlock

/-! ## What each command leaves unchanged -/

/-- 40_galois_field.md R99, 42_key_schedule.md R128, 43_round_transforms.md R137: GFMUL, RDRK and RDST, accepted or refused,
change only the response and, when refused with `FAULT = 0`, `FAULT`. -/
def Obligations.FrameOfReadingCommands : Prop :=
  ∀ (i : Instr) (s t : State), (i = .gfmul ∨ i = .rdst ∨ ∃ idx, i = .rdrk idx) → exec i s = .next t →
    t.STATE = s.STATE ∧ t.ST_VALID = s.ST_VALID ∧ t.RK = s.RK ∧ t.RK_VALID = s.RK_VALID ∧ t.cmd = s.cmd ∧ t.din = s.din ∧
    t.host = s.host ∧ t.draws = s.draws ∧ (s.FAULT ≠ 0#3 ∨ responseCode i s = 0#3 → t.FAULT = s.FAULT)

/-- 43_round_transforms.md R135, R136, R153: LDST, the round transforms and ADDRK leave the schedule, its valid bit and the
ports as they were, change `ST_VALID` only in LDST, and change `STATE` only when accepted. -/
def Obligations.FrameOfStateCommands : Prop :=
  ∀ (i : Instr) (s t : State),
    (i = .ldst ∨ i = .subbytesF ∨ i = .subbytesI ∨ i = .shiftrowsF ∨ i = .shiftrowsI ∨ i = .mixcolsF ∨ i = .mixcolsI ∨
      ∃ idx, i = .addrk idx) → exec i s = .next t →
    t.RK = s.RK ∧ t.RK_VALID = s.RK_VALID ∧ t.cmd = s.cmd ∧ t.din = s.din ∧ t.host = s.host ∧ t.draws = s.draws ∧
    (i ≠ .ldst ∨ responseCode i s ≠ 0#3 → t.ST_VALID = s.ST_VALID) ∧ (responseCode i s ≠ 0#3 → t.STATE = s.STATE) ∧
    (s.FAULT ≠ 0#3 ∨ responseCode i s = 0#3 → t.FAULT = s.FAULT)

/-- 42_key_schedule.md R127, 44_cipher_pipeline.md R166, R167: KEYEXP leaves `STATE` and `ST_VALID` as they were, ENCRYPT and
DECRYPT leave `RK` and `RK_VALID`, and all three leave the ports, and `FAULT` unless they are refused with `FAULT = 0`. A
refused one changes none of the four. -/
def Obligations.FrameOfKeyAndCipherCommands : Prop :=
  ∀ (i : Instr) (s t : State), (i = .keyexp ∨ i = .encrypt ∨ i = .decrypt) → exec i s = .next t →
    (i = .keyexp ∨ responseCode i s ≠ 0#3 → t.STATE = s.STATE ∧ t.ST_VALID = s.ST_VALID) ∧
    (i ≠ .keyexp ∨ responseCode i s ≠ 0#3 → t.RK = s.RK ∧ t.RK_VALID = s.RK_VALID) ∧
    t.cmd = s.cmd ∧ t.din = s.din ∧ t.host = s.host ∧ (s.FAULT ≠ 0#3 ∨ responseCode i s = 0#3 → t.FAULT = s.FAULT)

/-- 10_state.md R20, the column "written by", of every move of the host: `RK` and `RK_VALID` change only by KEYEXP or reset,
`ST_VALID` only by LDST, ENCRYPT, DECRYPT or reset, `STATE` by none of GFMUL, KEYEXP, RDST, RDRK, a reserved byte, sampling or
idling. -/
def Obligations.OnlyListedMovesWrite : Prop :=
  ∀ s t : State, step s = .next t →
    let issues (i : Instr) : Prop := ∃ d rest, s.host = .issue (encode i) d :: rest
    let resets : Prop := ∃ presented rest, s.host = .reset presented :: rest
    (t.RK ≠ s.RK ∨ t.RK_VALID ≠ s.RK_VALID → issues .keyexp ∨ resets) ∧
    (t.ST_VALID ≠ s.ST_VALID → issues .ldst ∨ issues .encrypt ∨ issues .decrypt ∨ resets) ∧
    (t.STATE ≠ s.STATE → issues .ldst ∨ issues .subbytesF ∨ issues .subbytesI ∨ issues .shiftrowsF ∨ issues .shiftrowsI ∨
      issues .mixcolsF ∨ issues .mixcolsI ∨ (∃ idx, issues (.addrk idx)) ∨ issues .encrypt ∨ issues .decrypt ∨ resets)

/-- 20_memory.md R57, 30_encoding.md R74: the commands that use no byte of `din` do the same whatever is on the bus, and GFMUL
does the same whatever is in `D[2]` to `D[15]`. -/
def Obligations.UnusedOperandBytesAreIgnored : Prop :=
  ∀ (i : Instr) (s t : State) (d : Bus), exec i s = .next t →
    (readsSTATE i = true ∨ (∃ idx, i = .rdrk idx) ∨
      (i = .gfmul ∧ d.extractLsb' 112 16 = s.din.extractLsb' 112 16)) →
    exec i { s with din := d } = .next { t with din := d }

/-! ## The field and the tables -/

/-- 40_galois_field.md R94 (b) to (f): zero, one, commutative, associative, distributive. -/
def Obligations.MultiplyRingLaws : Prop :=
  (∀ a, multiply a 0#8 = 0#8 ∧ multiply 0#8 a = 0#8) ∧ (∀ a, multiply a 1#8 = a ∧ multiply 1#8 a = a) ∧
  (∀ a b, multiply a b = multiply b a) ∧ (∀ a b c, multiply (multiply a b) c = multiply a (multiply b c)) ∧
  (∀ a b c, multiply a (b ^^^ c) = multiply a b ^^^ multiply a c) ∧
  ∀ a b c, multiply (a ^^^ b) c = multiply a c ^^^ multiply b c

/-- 40_galois_field.md R94 (g) to (j): no zero divisors, exactly one inverse of every non-zero byte and none of zero, the
powers of 3 reach every non-zero byte and return to 1 first at 3^255, and multiplication by a fixed non-zero byte is a
permutation. -/
def Obligations.MultiplyFieldLaws : Prop :=
  (∀ a b, multiply a b = 0#8 → a = 0#8 ∨ b = 0#8) ∧ (∀ a, a ≠ 0#8 → ∃! b, multiply a b = 1#8) ∧
  (∀ b, multiply 0#8 b ≠ 1#8) ∧
  (let power (n : Nat) : Byte := (fun p => multiply p 3#8)^[n] 1#8
   (∀ a, a ≠ 0#8 → ∃ n, 1 ≤ n ∧ n ≤ 255 ∧ power n = a) ∧ power 255 = 1#8 ∧ ∀ n, 1 ≤ n → n < 255 → power n ≠ 1#8) ∧
  ∀ n, n ≠ 0#8 → Function.Bijective fun a => multiply a n

/-- 40_galois_field.md R93: the eight-bit form with 0x1B and the nine-bit form with 0x11B return the same byte on all pairs. -/
def Obligations.NineBitReductionAgrees : Prop :=
  ∀ a b : Byte, multiplyNineBit a b = (multiply a b).setWidth 9

/-- 40_galois_field.md R95: doubling and the other fixed multipliers in closed form. -/
def Obligations.FixedMultipliersInClosedForm : Prop :=
  let xt (a : Byte) : Byte := (a <<< 1) ^^^ (if a.getLsbD 7 then 0x1B#8 else 0x00#8)
  ∀ a : Byte,
    multiply a 2#8 = xt a ∧ multiply a 3#8 = xt a ^^^ a ∧ multiply a 9#8 = xt (xt (xt a)) ^^^ a ∧
    multiply a 11#8 = xt (xt (xt a)) ^^^ xt a ^^^ a ∧ multiply a 13#8 = xt (xt (xt a)) ^^^ xt (xt a) ^^^ a ∧
    multiply a 14#8 = xt (xt (xt a)) ^^^ xt (xt a) ^^^ xt a

/-- 40_galois_field.md R96: entry `i` of `BuildMultiplierTable(n)` is `Multiply(i, n)`, and the six tables of the engine are
its results for 2, 3, 9, 11, 13 and 14. -/
def Obligations.MultiplierTablesAreBuilt : Prop :=
  (∀ n i : Byte, (buildMultiplierTable n)[i.toNat]'i.isLt = multiply i n) ∧
  ∀ i : Byte,
    rom .mul2 i = (buildMultiplierTable 2#8)[i.toNat]'i.isLt ∧ rom .mul3 i = (buildMultiplierTable 3#8)[i.toNat]'i.isLt ∧
    rom .mul9 i = (buildMultiplierTable 9#8)[i.toNat]'i.isLt ∧ rom .mul11 i = (buildMultiplierTable 11#8)[i.toNat]'i.isLt ∧
    rom .mul13 i = (buildMultiplierTable 13#8)[i.toNat]'i.isLt ∧ rom .mul14 i = (buildMultiplierTable 14#8)[i.toNat]'i.isLt

/-- 41_sbox.md R110: the two substitution tables are what `GenerateSboxes` builds. -/
def Obligations.SubstitutionTablesAreGenerated : Prop :=
  ∀ x : Byte, rom .sbox x = generateSboxes.1[x.toNat]'x.isLt ∧ rom .invsbox x = generateSboxes.2[x.toNat]'x.isLt

/-- 41_sbox.md R112: bit by bit the affine step, and `Sbox[x]` is the affine step of the inverse of `x`, of zero for zero. -/
def Obligations.SboxIsAffineOfInverse : Prop :=
  (∀ (q : Byte) (i : Nat), i < 8 → (affine q).getLsbD i = (q.getLsbD i ^^ q.getLsbD ((i + 7) % 8) ^^
    q.getLsbD ((i + 6) % 8) ^^ q.getLsbD ((i + 5) % 8) ^^ q.getLsbD ((i + 4) % 8) ^^ (0x63#8).getLsbD i)) ∧
  rom .sbox 0#8 = affine 0#8 ∧ ∀ x y : Byte, multiply x y = 1#8 → rom .sbox x = affine y

/-- 41_sbox.md R116: the two substitution tables are inverse permutations, no byte is fixed by `SBOX` and none is mapped to its
complement. -/
def Obligations.SubstitutionTablesAreInverse : Prop :=
  ∀ x : Byte, rom .invsbox (rom .sbox x) = x ∧ rom .sbox (rom .invsbox x) = x ∧ rom .sbox x ≠ x ∧
    rom .sbox x ≠ x ^^^ 0xFF#8

/-- 42_key_schedule.md R123: `RCON[1]` is 1 and each next entry is the double of the one before it. -/
def Obligations.RconIsSuccessiveDoubling : Prop :=
  rcon 1 (by omega) = 0x01#8 ∧
  ∀ (j : Nat) (h : 1 ≤ j ∧ j < 10), rcon (j + 1) (by omega) = multiply (rcon j (by omega)) 2#8

/-! ## The transforms and the key schedule -/

/-- 43_round_transforms.md R139 (a), (b): SubBytes in the two directions is inverse on every block, and it commutes with
ShiftRows whatever the directions. -/
def Obligations.SubBytesLaws : Prop :=
  ∀ B : Block,
    subBytes .inverse (subBytes .forward B) = B ∧ subBytes .forward (subBytes .inverse B) = B ∧
    ∀ d d' : Direction, subBytes d' (shiftRows d B) = shiftRows d (subBytes d' B)

/-- 43_round_transforms.md R143 (a) to (d): ShiftRows in the two directions is inverse on every block, row 0 never moves, the
directions agree on row 2, four times forward is the identity, a block of equal columns is unchanged. -/
def Obligations.ShiftRowsLaws : Prop :=
  ∀ B : Block,
    shiftRows .inverse (shiftRows .forward B) = B ∧ shiftRows .forward (shiftRows .inverse B) = B ∧
    (∀ (d : Direction) (c : Fin 4), (shiftRows d B)[4 * c.val] = B[4 * c.val]) ∧
    (∀ c : Fin 4, (shiftRows .forward B)[2 + 4 * c.val] = (shiftRows .inverse B)[2 + 4 * c.val]) ∧
    shiftRows .forward (shiftRows .forward (shiftRows .forward (shiftRows .forward B))) = B ∧
    ((∀ (r c : Fin 4), B[r.val + 4 * c.val] = B[r.val]) → ∀ d : Direction, shiftRows d B = B)

/-- 43_round_transforms.md R148 (b) to (d): output columns depend on the same input column only, MixColumns in the two
directions is inverse on every block, each direction is linear, the zero block is fixed, a column of four equal bytes is
fixed. -/
def Obligations.MixColumnsLaws : Prop :=
  (∀ (d : Direction) (A B : Block) (c : Fin 4), (∀ r : Fin 4, A[r.val + 4 * c.val] = B[r.val + 4 * c.val]) →
    ∀ r : Fin 4, (mixColumns d A)[r.val + 4 * c.val] = (mixColumns d B)[r.val + 4 * c.val]) ∧
  (∀ B : Block, mixColumns .inverse (mixColumns .forward B) = B ∧ mixColumns .forward (mixColumns .inverse B) = B) ∧
  (∀ (d : Direction) (A B : Block), mixColumns d (addRoundKey A B) = addRoundKey (mixColumns d A) (mixColumns d B)) ∧
  (∀ d : Direction, mixColumns d Block.zero = Block.zero) ∧
  ∀ (d : Direction) (B : Block) (c : Fin 4) (v : Byte), (∀ r : Fin 4, B[r.val + 4 * c.val] = v) →
    ∀ r : Fin 4, (mixColumns d B)[r.val + 4 * c.val] = v

/-- 43_round_transforms.md R154, in command terms: on a valid state of an engine without a fault, each transform command
followed by its inverse, in both orders, and ADDRK with one legal index twice, leave `STATE` as it was. -/
def Obligations.TransformCommandsUndoEachOther : Prop :=
  ∀ s : State, s.FAULT = 0#3 → s.ST_VALID = true →
    let undoes (i j : Instr) : Prop := ∃ t u, exec i s = .next t ∧ exec j t = .next u ∧ u.STATE = s.STATE ∧ u.FAULT = 0#3
    undoes .subbytesF .subbytesI ∧ undoes .subbytesI .subbytesF ∧ undoes .shiftrowsF .shiftrowsI ∧
    undoes .shiftrowsI .shiftrowsF ∧ undoes .mixcolsF .mixcolsI ∧ undoes .mixcolsI .mixcolsF ∧
    ∀ idx : BitVec 4, idx.toNat ≤ 10 → s.RK_VALID = true → undoes (.addrk idx) (.addrk idx)

/-- 42_key_schedule.md R120 to R124, on the eleven round keys: with word `i` the bytes `4 (i mod 4)` to `4 (i mod 4) + 3` of
round key `i / 4`, the first four words are the key, every other word is word `i - 4` plus word `i - 1`, the latter rotated,
substituted and given the round constant in byte 0 when `i` is a multiple of 4. -/
def Obligations.KeyScheduleRecurrence : Prop :=
  ∀ key : Block,
    let w (i : Nat) (h : i < 44) (k : Fin 4) : Byte := ((keyExpansion key)[i / 4]'(by omega))[4 * (i % 4) + k.val]
    (∀ (i : Nat) (h : i < 4) (k : Fin 4), w i (by omega) k = key[4 * i + k.val]) ∧
    (∀ (i : Nat) (h : 4 ≤ i ∧ i < 44), i % 4 = 0 → ∀ k : Fin 4, w i (by omega) k =
      w (i - 4) (by omega) k ^^^ rom .sbox (w (i - 1) (by omega) (k + 1)) ^^^
        (if k = 0 then rcon (i / 4) (by omega) else 0x00#8)) ∧
    ∀ (i : Nat) (h : 4 ≤ i ∧ i < 44), i % 4 ≠ 0 → ∀ k : Fin 4, w i (by omega) k =
      w (i - 4) (by omega) k ^^^ w (i - 1) (by omega) k

/-- 42_key_schedule.md R125: the same expansion written on round keys. -/
def Obligations.KeyScheduleOnRoundKeys : Prop :=
  ∀ key : Block,
    (keyExpansion key)[0] = key ∧
    ∀ (r : Nat) (h : 1 ≤ r ∧ r ≤ 10),
      let K : Block := (keyExpansion key)[r - 1]'(by omega)
      let K' : Block := (keyExpansion key)[r]'(by omega)
      K'[0] = K[0] ^^^ rom .sbox K[13] ^^^ rcon r h ∧ K'[1] = K[1] ^^^ rom .sbox K[14] ∧
      K'[2] = K[2] ^^^ rom .sbox K[15] ∧ K'[3] = K[3] ^^^ rom .sbox K[12] ∧
      ∀ (i : Nat) (h' : 4 ≤ i ∧ i < 16), K'[i] = K[i] ^^^ K'[i - 4]

/-! ## The pipeline -/

/-- 44_cipher_pipeline.md R160, R161: any sequence of blocks that starts at the plaintext and follows the eleven encrypt stages
ends at `Encrypt`. -/
def Obligations.EncryptRunsElevenStages : Prop :=
  ∀ (RK : Schedule) (b : Nat → Block),
    b 1 = addRoundKey (b 0) RK[0] →
    (∀ (i : Nat) (h : 1 ≤ i ∧ i ≤ 9), b (i + 1) =
      addRoundKey (mixColumns .forward (shiftRows .forward (subBytes .forward (b i)))) (RK[i]'(by omega))) →
    b 11 = addRoundKey (shiftRows .forward (subBytes .forward (b 10))) RK[10] →
    encryptBlock (b 0) RK = b 11

/-- 44_cipher_pipeline.md R162, R163: any sequence of blocks that starts at the ciphertext and follows the eleven decrypt
stages, round keys in reverse order, ends at `Decrypt`. -/
def Obligations.DecryptRunsElevenStages : Prop :=
  ∀ (RK : Schedule) (b : Nat → Block),
    b 1 = addRoundKey (b 0) RK[10] →
    (∀ (j : Nat) (h : 1 ≤ j ∧ j ≤ 9), b (j + 1) =
      mixColumns .inverse (addRoundKey (subBytes .inverse (shiftRows .inverse (b j))) (RK[10 - j]'(by omega)))) →
    b 11 = addRoundKey (subBytes .inverse (shiftRows .inverse (b 10))) RK[0] →
    decryptBlock (b 0) RK = b 11

/-- 44_cipher_pipeline.md R164, the master contract, in both directions and for every schedule, those of a key among them. -/
def Obligations.DecryptInvertsEncrypt : Prop :=
  (∀ p k : Block, decryptBlock (encryptBlock p (keyExpansion k)) (keyExpansion k) = p) ∧
  ∀ (b : Block) (RK : Schedule), decryptBlock (encryptBlock b RK) RK = b ∧ encryptBlock (decryptBlock b RK) RK = b

/-- 44_cipher_pipeline.md R164, R166, R167, as commands: on an engine with a schedule and without a fault, DECRYPT of what
ENCRYPT answered answers the plaintext, and the other way round. -/
def Obligations.CipherCommandsUndoEachOther : Prop :=
  ∀ s : State, s.FAULT = 0#3 → s.RK_VALID = true →
    let undoes (i j : Instr) : Prop := ∃ t r u, exec i s = .next t ∧ t.response = some r ∧
      exec j { t with din := r.dout } = .next u ∧ u.response = some ⟨0#3, s.din⟩
    undoes .encrypt .decrypt ∧ undoes .decrypt .encrypt

/-- 44_cipher_pipeline.md R168: from any state with a schedule and without a fault, the 42 single-transform commands that load
the block on `din`, run the stages and read the state end with the response ENCRYPT (DECRYPT) gives for that block. The end
states differ in `ST_VALID`: 1 with the result in `STATE` after the sequence, 0 after the one command. -/
def Obligations.SingleTransformsEqualTheCipher : Prop :=
  let forwardRound (i : Nat) : List Instr := [.subbytesF, .shiftrowsF, .mixcolsF, .addrk (BitVec.ofNat 4 i)]
  let inverseRound (i : Nat) : List Instr := [.shiftrowsI, .subbytesI, .addrk (BitVec.ofNat 4 i), .mixcolsI]
  let encryption : List Instr := [.ldst, .addrk 0#4] ++ ([1, 2, 3, 4, 5, 6, 7, 8, 9] : List Nat).flatMap forwardRound ++
    [.subbytesF, .shiftrowsF, .addrk 10#4, .rdst]
  let decryption : List Instr := [.ldst, .addrk 10#4] ++ ([9, 8, 7, 6, 5, 4, 3, 2, 1] : List Nat).flatMap inverseRound ++
    [.shiftrowsI, .subbytesI, .addrk 0#4, .rdst]
  let answersAs (commands : List Instr) (cipher : Instr) (s : State) : Prop :=
    ∃ t u : State, ∃ d : Bus,
      Sys2Proof.core.run 42 (s.withProgram (commands.map fun i => (i, s.din))) = .next t ∧ exec cipher s = .next u ∧
      t.response = some ⟨0#3, d⟩ ∧ u.response = some ⟨0#3, d⟩ ∧ t.STATE = blockOfBus d ∧ t.ST_VALID = true ∧
      u.ST_VALID = false ∧ t.FAULT = 0#3 ∧ t.RK = s.RK ∧ t.RK_VALID = true ∧ t.host = []
  ∀ s : State, s.FAULT = 0#3 → s.RK_VALID = true → answersAs encryption .encrypt s ∧ answersAs decryption .decrypt s

/-! ## Invariants -/

/-- 10_state.md R20, R24, R25, 60_exceptions.md R178, R179: every step keeps the invariant: `FAULT` at most 4, a valid `RK` the
expansion of some key, the last response in accord with `FAULT`. -/
def Obligations.StepKeepsTheInvariant : Prop :=
  ∀ s t : State, s.Inv → step s = .next t → t.Inv

/-- The reset state meets the invariant. -/
def Obligations.ResetMeetsTheInvariant : Prop := State.reset.Inv

/-- 10_state.md R35: the response and the next valid state of every step are the same whatever the unspecified bytes are: two
states that agree on all that is specified step to two states that agree on it. -/
def Obligations.UnspecifiedBytesAreNeverObserved : Prop :=
  ∀ s s' : State, s.Agrees s' → ∃ t t', step s = .next t ∧ step s' = .next t' ∧ t.Agrees t'
end

