-- ==== Sys2Proof/Laws/State.lean ====
section
/-! SUPPORT. What each named update of the state leaves in each field: one lemma per field per update, so that no later proof
unfolds a record update. -/

namespace Sys2Proof.Machine

variable (s : State)

/-! ## `State.setSTATE` -/

@[simp] theorem setSTATE_STATE (B : Block) : (s.setSTATE B).STATE = B := rfl
@[simp] theorem setSTATE_ST_VALID (B : Block) : (s.setSTATE B).ST_VALID = s.ST_VALID := rfl
@[simp] theorem setSTATE_RK (B : Block) : (s.setSTATE B).RK = s.RK := rfl
@[simp] theorem setSTATE_RK_VALID (B : Block) : (s.setSTATE B).RK_VALID = s.RK_VALID := rfl
@[simp] theorem setSTATE_FAULT (B : Block) : (s.setSTATE B).FAULT = s.FAULT := rfl
@[simp] theorem setSTATE_cmd (B : Block) : (s.setSTATE B).cmd = s.cmd := rfl
@[simp] theorem setSTATE_din (B : Block) : (s.setSTATE B).din = s.din := rfl
@[simp] theorem setSTATE_response (B : Block) : (s.setSTATE B).response = s.response := rfl
@[simp] theorem setSTATE_host (B : Block) : (s.setSTATE B).host = s.host := rfl
@[simp] theorem setSTATE_draws (B : Block) : (s.setSTATE B).draws = s.draws := rfl

/-! ## `State.setST_VALID` -/

@[simp] theorem setST_VALID_STATE (v : Bool) : (s.setST_VALID v).STATE = s.STATE := rfl
@[simp] theorem setST_VALID_ST_VALID (v : Bool) : (s.setST_VALID v).ST_VALID = v := rfl
@[simp] theorem setST_VALID_RK (v : Bool) : (s.setST_VALID v).RK = s.RK := rfl
@[simp] theorem setST_VALID_RK_VALID (v : Bool) : (s.setST_VALID v).RK_VALID = s.RK_VALID := rfl
@[simp] theorem setST_VALID_FAULT (v : Bool) : (s.setST_VALID v).FAULT = s.FAULT := rfl
@[simp] theorem setST_VALID_cmd (v : Bool) : (s.setST_VALID v).cmd = s.cmd := rfl
@[simp] theorem setST_VALID_din (v : Bool) : (s.setST_VALID v).din = s.din := rfl
@[simp] theorem setST_VALID_response (v : Bool) : (s.setST_VALID v).response = s.response := rfl
@[simp] theorem setST_VALID_host (v : Bool) : (s.setST_VALID v).host = s.host := rfl
@[simp] theorem setST_VALID_draws (v : Bool) : (s.setST_VALID v).draws = s.draws := rfl

/-! ## `State.setRK` -/

@[simp] theorem setRK_STATE (K : Schedule) : (s.setRK K).STATE = s.STATE := rfl
@[simp] theorem setRK_ST_VALID (K : Schedule) : (s.setRK K).ST_VALID = s.ST_VALID := rfl
@[simp] theorem setRK_RK (K : Schedule) : (s.setRK K).RK = K := rfl
@[simp] theorem setRK_RK_VALID (K : Schedule) : (s.setRK K).RK_VALID = s.RK_VALID := rfl
@[simp] theorem setRK_FAULT (K : Schedule) : (s.setRK K).FAULT = s.FAULT := rfl
@[simp] theorem setRK_cmd (K : Schedule) : (s.setRK K).cmd = s.cmd := rfl
@[simp] theorem setRK_din (K : Schedule) : (s.setRK K).din = s.din := rfl
@[simp] theorem setRK_response (K : Schedule) : (s.setRK K).response = s.response := rfl
@[simp] theorem setRK_host (K : Schedule) : (s.setRK K).host = s.host := rfl
@[simp] theorem setRK_draws (K : Schedule) : (s.setRK K).draws = s.draws := rfl

/-! ## `State.setRK_VALID` -/

@[simp] theorem setRK_VALID_STATE (v : Bool) : (s.setRK_VALID v).STATE = s.STATE := rfl
@[simp] theorem setRK_VALID_ST_VALID (v : Bool) : (s.setRK_VALID v).ST_VALID = s.ST_VALID := rfl
@[simp] theorem setRK_VALID_RK (v : Bool) : (s.setRK_VALID v).RK = s.RK := rfl
@[simp] theorem setRK_VALID_RK_VALID (v : Bool) : (s.setRK_VALID v).RK_VALID = v := rfl
@[simp] theorem setRK_VALID_FAULT (v : Bool) : (s.setRK_VALID v).FAULT = s.FAULT := rfl
@[simp] theorem setRK_VALID_cmd (v : Bool) : (s.setRK_VALID v).cmd = s.cmd := rfl
@[simp] theorem setRK_VALID_din (v : Bool) : (s.setRK_VALID v).din = s.din := rfl
@[simp] theorem setRK_VALID_response (v : Bool) : (s.setRK_VALID v).response = s.response := rfl
@[simp] theorem setRK_VALID_host (v : Bool) : (s.setRK_VALID v).host = s.host := rfl
@[simp] theorem setRK_VALID_draws (v : Bool) : (s.setRK_VALID v).draws = s.draws := rfl

/-! ## `State.setFAULT` -/

@[simp] theorem setFAULT_STATE (c : BitVec 3) : (s.setFAULT c).STATE = s.STATE := rfl
@[simp] theorem setFAULT_ST_VALID (c : BitVec 3) : (s.setFAULT c).ST_VALID = s.ST_VALID := rfl
@[simp] theorem setFAULT_RK (c : BitVec 3) : (s.setFAULT c).RK = s.RK := rfl
@[simp] theorem setFAULT_RK_VALID (c : BitVec 3) : (s.setFAULT c).RK_VALID = s.RK_VALID := rfl
@[simp] theorem setFAULT_FAULT (c : BitVec 3) : (s.setFAULT c).FAULT = c := rfl
@[simp] theorem setFAULT_cmd (c : BitVec 3) : (s.setFAULT c).cmd = s.cmd := rfl
@[simp] theorem setFAULT_din (c : BitVec 3) : (s.setFAULT c).din = s.din := rfl
@[simp] theorem setFAULT_response (c : BitVec 3) : (s.setFAULT c).response = s.response := rfl
@[simp] theorem setFAULT_host (c : BitVec 3) : (s.setFAULT c).host = s.host := rfl
@[simp] theorem setFAULT_draws (c : BitVec 3) : (s.setFAULT c).draws = s.draws := rfl

/-! ## `State.respond` -/

@[simp] theorem respond_STATE (e : BitVec 3) (d : Bus) : (s.respond e d).STATE = s.STATE := rfl
@[simp] theorem respond_ST_VALID (e : BitVec 3) (d : Bus) : (s.respond e d).ST_VALID = s.ST_VALID := rfl
@[simp] theorem respond_RK (e : BitVec 3) (d : Bus) : (s.respond e d).RK = s.RK := rfl
@[simp] theorem respond_RK_VALID (e : BitVec 3) (d : Bus) : (s.respond e d).RK_VALID = s.RK_VALID := rfl
@[simp] theorem respond_FAULT (e : BitVec 3) (d : Bus) : (s.respond e d).FAULT = s.FAULT := rfl
@[simp] theorem respond_cmd (e : BitVec 3) (d : Bus) : (s.respond e d).cmd = s.cmd := rfl
@[simp] theorem respond_din (e : BitVec 3) (d : Bus) : (s.respond e d).din = s.din := rfl
@[simp] theorem respond_response (e : BitVec 3) (d : Bus) : (s.respond e d).response = some ⟨e, d⟩ := rfl
@[simp] theorem respond_host (e : BitVec 3) (d : Bus) : (s.respond e d).host = s.host := rfl
@[simp] theorem respond_draws (e : BitVec 3) (d : Bus) : (s.respond e d).draws = s.draws := rfl

/-! ## `State.accept` -/

@[simp] theorem accept_STATE (d : Bus) : (s.accept d).STATE = s.STATE := rfl
@[simp] theorem accept_ST_VALID (d : Bus) : (s.accept d).ST_VALID = s.ST_VALID := rfl
@[simp] theorem accept_RK (d : Bus) : (s.accept d).RK = s.RK := rfl
@[simp] theorem accept_RK_VALID (d : Bus) : (s.accept d).RK_VALID = s.RK_VALID := rfl
@[simp] theorem accept_FAULT (d : Bus) : (s.accept d).FAULT = s.FAULT := rfl
@[simp] theorem accept_cmd (d : Bus) : (s.accept d).cmd = s.cmd := rfl
@[simp] theorem accept_din (d : Bus) : (s.accept d).din = s.din := rfl
@[simp] theorem accept_response (d : Bus) : (s.accept d).response = some ⟨okCode, d⟩ := rfl
@[simp] theorem accept_host (d : Bus) : (s.accept d).host = s.host := rfl
@[simp] theorem accept_draws (d : Bus) : (s.accept d).draws = s.draws := rfl

/-! ## `State.loseSTATE` -/

@[simp] theorem loseSTATE_STATE : (s.loseSTATE).STATE = Config.unspecifiedBlock s.draws s.din s.STATE s.RK := rfl
@[simp] theorem loseSTATE_ST_VALID : (s.loseSTATE).ST_VALID = s.ST_VALID := rfl
@[simp] theorem loseSTATE_RK : (s.loseSTATE).RK = s.RK := rfl
@[simp] theorem loseSTATE_RK_VALID : (s.loseSTATE).RK_VALID = s.RK_VALID := rfl
@[simp] theorem loseSTATE_FAULT : (s.loseSTATE).FAULT = s.FAULT := rfl
@[simp] theorem loseSTATE_cmd : (s.loseSTATE).cmd = s.cmd := rfl
@[simp] theorem loseSTATE_din : (s.loseSTATE).din = s.din := rfl
@[simp] theorem loseSTATE_response : (s.loseSTATE).response = s.response := rfl
@[simp] theorem loseSTATE_host : (s.loseSTATE).host = s.host := rfl
@[simp] theorem loseSTATE_draws : (s.loseSTATE).draws = s.draws + 1 := rfl

/-! ## `State.present` -/

@[simp] theorem present_STATE (c : Byte) (d : Bus) : (s.present c d).STATE = s.STATE := rfl
@[simp] theorem present_ST_VALID (c : Byte) (d : Bus) : (s.present c d).ST_VALID = s.ST_VALID := rfl
@[simp] theorem present_RK (c : Byte) (d : Bus) : (s.present c d).RK = s.RK := rfl
@[simp] theorem present_RK_VALID (c : Byte) (d : Bus) : (s.present c d).RK_VALID = s.RK_VALID := rfl
@[simp] theorem present_FAULT (c : Byte) (d : Bus) : (s.present c d).FAULT = s.FAULT := rfl
@[simp] theorem present_cmd (c : Byte) (d : Bus) : (s.present c d).cmd = c := rfl
@[simp] theorem present_din (c : Byte) (d : Bus) : (s.present c d).din = d := rfl
@[simp] theorem present_response (c : Byte) (d : Bus) : (s.present c d).response = s.response := rfl
@[simp] theorem present_host (c : Byte) (d : Bus) : (s.present c d).host = s.host := rfl
@[simp] theorem present_draws (c : Byte) (d : Bus) : (s.present c d).draws = s.draws := rfl

/-! ## `State.setHost` -/

@[simp] theorem setHost_STATE (r : List HostMove) : (s.setHost r).STATE = s.STATE := rfl
@[simp] theorem setHost_ST_VALID (r : List HostMove) : (s.setHost r).ST_VALID = s.ST_VALID := rfl
@[simp] theorem setHost_RK (r : List HostMove) : (s.setHost r).RK = s.RK := rfl
@[simp] theorem setHost_RK_VALID (r : List HostMove) : (s.setHost r).RK_VALID = s.RK_VALID := rfl
@[simp] theorem setHost_FAULT (r : List HostMove) : (s.setHost r).FAULT = s.FAULT := rfl
@[simp] theorem setHost_cmd (r : List HostMove) : (s.setHost r).cmd = s.cmd := rfl
@[simp] theorem setHost_din (r : List HostMove) : (s.setHost r).din = s.din := rfl
@[simp] theorem setHost_response (r : List HostMove) : (s.setHost r).response = s.response := rfl
@[simp] theorem setHost_host (r : List HostMove) : (s.setHost r).host = r := rfl
@[simp] theorem setHost_draws (r : List HostMove) : (s.setHost r).draws = s.draws := rfl

/-! ## `State.raiseFault` -/

@[simp] theorem raiseFault_STATE (c : Cause) : (s.raiseFault c).STATE = s.STATE := rfl
@[simp] theorem raiseFault_ST_VALID (c : Cause) : (s.raiseFault c).ST_VALID = s.ST_VALID := rfl
@[simp] theorem raiseFault_RK (c : Cause) : (s.raiseFault c).RK = s.RK := rfl
@[simp] theorem raiseFault_RK_VALID (c : Cause) : (s.raiseFault c).RK_VALID = s.RK_VALID := rfl
@[simp] theorem raiseFault_FAULT (c : Cause) : (s.raiseFault c).FAULT = c.code := rfl
@[simp] theorem raiseFault_cmd (c : Cause) : (s.raiseFault c).cmd = s.cmd := rfl
@[simp] theorem raiseFault_din (c : Cause) : (s.raiseFault c).din = s.din := rfl
@[simp] theorem raiseFault_response (c : Cause) : (s.raiseFault c).response = some ⟨c.code, zeroBus⟩ := rfl
@[simp] theorem raiseFault_host (c : Cause) : (s.raiseFault c).host = s.host := rfl
@[simp] theorem raiseFault_draws (c : Cause) : (s.raiseFault c).draws = s.draws := rfl

/-! ## `State.refuseHalted` -/

@[simp] theorem refuseHalted_STATE : (s.refuseHalted).STATE = s.STATE := rfl
@[simp] theorem refuseHalted_ST_VALID : (s.refuseHalted).ST_VALID = s.ST_VALID := rfl
@[simp] theorem refuseHalted_RK : (s.refuseHalted).RK = s.RK := rfl
@[simp] theorem refuseHalted_RK_VALID : (s.refuseHalted).RK_VALID = s.RK_VALID := rfl
@[simp] theorem refuseHalted_FAULT : (s.refuseHalted).FAULT = s.FAULT := rfl
@[simp] theorem refuseHalted_cmd : (s.refuseHalted).cmd = s.cmd := rfl
@[simp] theorem refuseHalted_din : (s.refuseHalted).din = s.din := rfl
@[simp] theorem refuseHalted_response : (s.refuseHalted).response = some ⟨haltedCode, zeroBus⟩ := rfl
@[simp] theorem refuseHalted_host : (s.refuseHalted).host = s.host := rfl
@[simp] theorem refuseHalted_draws : (s.refuseHalted).draws = s.draws := rfl

/-! ## `State.takeReset` -/

@[simp] theorem takeReset_STATE : (s.takeReset).STATE = Config.unspecifiedBlock s.draws s.din s.STATE s.RK := rfl
@[simp] theorem takeReset_ST_VALID : (s.takeReset).ST_VALID = false := rfl
@[simp] theorem takeReset_RK : (s.takeReset).RK = Config.unspecifiedSchedule s.draws s.din s.STATE s.RK := rfl
@[simp] theorem takeReset_RK_VALID : (s.takeReset).RK_VALID = false := rfl
@[simp] theorem takeReset_FAULT : (s.takeReset).FAULT = 0#3 := rfl
@[simp] theorem takeReset_cmd : (s.takeReset).cmd = s.cmd := rfl
@[simp] theorem takeReset_din : (s.takeReset).din = s.din := rfl
@[simp] theorem takeReset_response : (s.takeReset).response = none := rfl
@[simp] theorem takeReset_host : (s.takeReset).host = s.host := rfl
@[simp] theorem takeReset_draws : (s.takeReset).draws = s.draws + 1 := rfl

/-! ## `State.presentWithReset`: only the two input ports can change -/

@[simp] theorem presentWithReset_STATE (p : Option (Byte × Bus)) : (s.presentWithReset p).STATE = s.STATE := by
  cases p <;> rfl
@[simp] theorem presentWithReset_ST_VALID (p : Option (Byte × Bus)) : (s.presentWithReset p).ST_VALID = s.ST_VALID := by
  cases p <;> rfl
@[simp] theorem presentWithReset_RK (p : Option (Byte × Bus)) : (s.presentWithReset p).RK = s.RK := by
  cases p <;> rfl
@[simp] theorem presentWithReset_RK_VALID (p : Option (Byte × Bus)) : (s.presentWithReset p).RK_VALID = s.RK_VALID := by
  cases p <;> rfl
@[simp] theorem presentWithReset_FAULT (p : Option (Byte × Bus)) : (s.presentWithReset p).FAULT = s.FAULT := by
  cases p <;> rfl
@[simp] theorem presentWithReset_response (p : Option (Byte × Bus)) : (s.presentWithReset p).response = s.response := by
  cases p <;> rfl
@[simp] theorem presentWithReset_host (p : Option (Byte × Bus)) : (s.presentWithReset p).host = s.host := by
  cases p <;> rfl
@[simp] theorem presentWithReset_draws (p : Option (Byte × Bus)) : (s.presentWithReset p).draws = s.draws := by
  cases p <;> rfl

end Sys2Proof.Machine
end

