-- ==== Sys2Proof/Laws/Word.lean ====
section
/-! SUPPORT. Reading an entry of a word, a block or a schedule given by a function, and equality entry by entry. -/

namespace Sys2Proof

@[simp] theorem Word.getElem_ofFn (f : Fin 4 → Byte) (k : Nat) (h : k < 4) : (Word.ofFn f)[k] = f ⟨k, h⟩ := by
  unfold Word.ofFn
  interval_cases k <;> rfl

@[simp] theorem Block.getElem_ofFn (f : Fin 16 → Byte) (i : Nat) (h : i < 16) : (Block.ofFn f)[i] = f ⟨i, h⟩ := by
  unfold Block.ofFn
  interval_cases i <;> rfl

@[simp] theorem Schedule.getElem_ofFn (f : Fin 11 → Block) (r : Nat) (h : r < 11) : (Schedule.ofFn f)[r] = f ⟨r, h⟩ := by
  unfold Schedule.ofFn
  interval_cases r <;> rfl

@[simp] theorem Block.getElem_zero (i : Nat) (h : i < 16) : Block.zero[i] = 0x00#8 := by
  simp [Block.zero]

/-- A block is the function of its own entries. -/
theorem Block.ofFn_getElem (B : Block) : (Block.ofFn fun i => B[i]) = B :=
  Vector.ext fun i h => by simp

/-- A function of the entry numbers that the block's entries follow is the block. -/
theorem Block.eq_ofFn {B : Block} {f : Fin 16 → Byte} (h : ∀ (i : Nat) (hi : i < 16), B[i] = f ⟨i, hi⟩) :
    B = Block.ofFn f :=
  Vector.ext fun i hi => by simp [h i hi]

/-- Two functions that agree give one block. -/
theorem Block.ofFn_congr {f g : Fin 16 → Byte} (h : ∀ i, f i = g i) : Block.ofFn f = Block.ofFn g := by
  rw [funext h]

end Sys2Proof
end

