-- ==== Sys2Proof/Laws/Ops.lean ====
section
/-! SUPPORT. What each shared operation can do, said once: admission, a command, a refusal, a transform, the index and operand
forms, the matrix view of a block. -/

namespace Sys2Proof.Machine

/-! ## Flags and operand forms -/

theorem halted_eq_true_iff (s : State) : s.halted = true ↔ s.FAULT ≠ 0#3 := by
  simp [State.halted]

theorem halted_eq_false_iff (s : State) : s.halted = false ↔ s.FAULT = 0#3 := by
  simp [State.halted]

/-- Every cause has a code of its own, 1 to 4 (60_exceptions.md R175). -/
theorem causeCode_range (c : Cause) : 1 ≤ c.code.toNat ∧ c.code.toNat ≤ 4 := by
  cases c <;> decide

theorem causeCode_ne_zero (c : Cause) : c.code ≠ 0#3 := by
  cases c <;> decide

theorem causeCode_injective {c c' : Cause} (h : c.code = c'.code) : c = c' := by
  cases c <;> cases c' <;> first | rfl | exact absurd h (by decide)

/-- A legal index is its own round-key number. -/
theorem roundKeyNumber_of_le {idx : BitVec 4} (h : idx.toNat ≤ 10) :
    roundKeyNumber idx = some ⟨idx.toNat, by omega⟩ := by
  rw [roundKeyNumber, dif_pos (by omega)]

/-- An index above 10 is no round-key number. -/
theorem roundKeyNumber_of_gt {idx : BitVec 4} (h : 10 < idx.toNat) : roundKeyNumber idx = none := by
  rw [roundKeyNumber, dif_neg (by omega)]

@[simp] theorem getElem_blockOfBus (d : Bus) (i : Nat) (h : i < 16) :
    (blockOfBus d)[i] = d.extractLsb' (120 - 8 * i) 8 := by
  simp [blockOfBus]

/-! ## Admission -/

theorem admission_of_halted (n : Needs) {s : State} (h : s.FAULT ≠ 0#3) : admission n s = .halted := by
  rw [admission, if_pos ((halted_eq_true_iff s).mpr h)]

/-- On an engine without a fault admission makes the checks 2 to 5. -/
theorem admission_of_running (n : Needs) {s : State} (h : s.FAULT = 0#3) :
    admission n s = match n.encoding with
      | some c => .raise c
      | none =>
        if n.rk && !s.RK_VALID then .raise .noKey else if n.st && !s.ST_VALID then .raise .noState else .accepted := by
  have hn : s.halted ≠ true := by simp [halted_eq_true_iff, h]
  cases he : n.encoding <;> simp only [admission, if_neg hn, he]

/-- What admission can decide, and what each decision says about the state. -/
theorem admission_cases (n : Needs) (s : State) :
    (s.FAULT ≠ 0#3 ∧ admission n s = .halted) ∨
    (s.FAULT = 0#3 ∧ ∃ c, n.encoding = some c ∧ admission n s = .raise c) ∨
    (s.FAULT = 0#3 ∧ n.encoding = none ∧ n.rk = true ∧ s.RK_VALID = false ∧ admission n s = .raise .noKey) ∨
    (s.FAULT = 0#3 ∧ n.encoding = none ∧ (n.rk = true → s.RK_VALID = true) ∧ n.st = true ∧ s.ST_VALID = false ∧
      admission n s = .raise .noState) ∨
    (s.FAULT = 0#3 ∧ n.encoding = none ∧ (n.rk = true → s.RK_VALID = true) ∧ (n.st = true → s.ST_VALID = true) ∧
      admission n s = .accepted) := by
  by_cases hf : s.FAULT = 0#3
  · rw [admission_of_running n hf]
    rcases n with ⟨_ | c, rk, st⟩
    · cases rk <;> cases st <;> cases h1 : s.RK_VALID <;> cases h2 : s.ST_VALID <;> simp [hf]
    · exact .inr (.inl ⟨hf, c, rfl, rfl⟩)
  · exact .inl ⟨hf, admission_of_halted n hf⟩

/-! ## Commands -/

theorem command_of_halted (n : Needs) (e : State → State) {s : State} (h : s.FAULT ≠ 0#3) :
    command n e s = .next s.refuseHalted := by
  rw [command, admission_of_halted n h]

theorem command_of_admission_raise {n : Needs} {s : State} {c : Cause} (e : State → State) (h : admission n s = .raise c) :
    command n e s = .next (s.raiseFault c) := by
  rw [command, h]

theorem command_of_admission_accepted {n : Needs} {s : State} (e : State → State) (h : admission n s = .accepted) :
    command n e s = .next (e s) := by
  rw [command, h]

/-- A command answers a next state in every state: its effect, the halted answer or a fault entry. -/
theorem command_cases (n : Needs) (e : State → State) (s : State) :
    (admission n s = .accepted ∧ command n e s = .next (e s)) ∨
    (admission n s = .halted ∧ command n e s = .next s.refuseHalted) ∨
    ∃ c, admission n s = .raise c ∧ command n e s = .next (s.raiseFault c) := by
  cases h : admission n s with
  | accepted => exact .inl ⟨rfl, command_of_admission_accepted e h⟩
  | halted => exact .inr (.inl ⟨rfl, by rw [command, h]⟩)
  | raise c => exact .inr (.inr ⟨c, rfl, command_of_admission_raise e h⟩)

/-- If a command answers `t`, then `t` is its effect, the halted answer or a fault entry, with what admission decided. -/
theorem command_next {n : Needs} {e : State → State} {s t : State} (h : command n e s = .next t) :
    (admission n s = .accepted ∧ t = e s) ∨ (admission n s = .halted ∧ t = s.refuseHalted) ∨
      ∃ c, admission n s = .raise c ∧ t = s.raiseFault c := by
  rcases command_cases n e s with ⟨ha, hc⟩ | ⟨ha, hc⟩ | ⟨c, ha, hc⟩ <;> rw [hc] at h <;>
    simp only [Host.Outcome.next.injEq] at h <;> subst h
  · exact .inl ⟨ha, rfl⟩
  · exact .inr (.inl ⟨ha, rfl⟩)
  · exact .inr (.inr ⟨c, ha, rfl⟩)

/-- A command that needs nothing is accepted on every engine without a fault. -/
theorem command_of_running_free (e : State → State) {s : State} (h : s.FAULT = 0#3) : command {} e s = .next (e s) :=
  command_of_admission_accepted e (by rw [admission_of_running _ h]; rfl)

/-- A command whose needs are met is accepted. -/
theorem command_of_met {n : Needs} (e : State → State) {s : State} (h : s.FAULT = 0#3) (hn : n.encoding = none)
    (hk : n.rk = true → s.RK_VALID = true) (hs : n.st = true → s.ST_VALID = true) : command n e s = .next (e s) := by
  rcases n with ⟨_ | c, rk, st⟩
  · refine command_of_admission_accepted e ?_
    rw [admission_of_running _ h]
    cases rk <;> cases st <;> simp_all
  · simp at hn

theorem refuse_of_running (c : Cause) {s : State} (h : s.FAULT = 0#3) : refuse c s = .next (s.raiseFault c) :=
  command_of_admission_raise _ (by rw [admission_of_running _ h])

theorem refuse_of_halted (c : Cause) {s : State} (h : s.FAULT ≠ 0#3) : refuse c s = .next s.refuseHalted :=
  command_of_halted _ _ h

theorem transform_of_loaded (f : Block → Block) {s : State} (h : s.FAULT = 0#3) (hs : s.ST_VALID = true) :
    transform f s = .next ((s.setSTATE (f s.STATE)).accept zeroBus) :=
  command_of_met _ h rfl (by simp) (fun _ => hs)

theorem transform_of_empty (f : Block → Block) {s : State} (h : s.FAULT = 0#3) (hs : s.ST_VALID = false) :
    transform f s = .next (s.raiseFault .noState) :=
  command_of_admission_raise _ (by simp [admission_of_running _ h, hs])

/-! ## The matrix view of a block -/

@[simp] theorem getElem_blockOfMatrix (f : (r c : Fin 4) → Byte) (i : Nat) (h : i < 16) :
    (blockOfMatrix f)[i] = f ⟨i % 4, by omega⟩ ⟨i / 4, by omega⟩ := by
  simp [blockOfMatrix]

@[simp] theorem matrixAt_blockOfMatrix (f : (r c : Fin 4) → Byte) (r c : Fin 4) :
    matrixAt (blockOfMatrix f) r c = f r c := by
  have h1 : (r.val + 4 * c.val) % 4 = r.val := by omega
  have h2 : (r.val + 4 * c.val) / 4 = c.val := by omega
  simp [matrixAt, h1, h2]

/-- Two blocks with the same matrix are equal. -/
theorem block_ext_matrix {A B : Block} (h : ∀ r c, matrixAt A r c = matrixAt B r c) : A = B :=
  Vector.ext fun i hi => by
    have := h ⟨i % 4, by omega⟩ ⟨i / 4, by omega⟩
    simpa [matrixAt, Nat.mod_add_div] using this

@[simp] theorem getElem_addRoundKey (B K : Block) (i : Nat) (h : i < 16) : (addRoundKey B K)[i] = B[i] ^^^ K[i] := by
  simp [addRoundKey]

@[simp] theorem getElem_subBytes_forward (B : Block) (i : Nat) (h : i < 16) :
    (subBytes .forward B)[i] = rom .sbox B[i] := by
  simp [subBytes]

@[simp] theorem getElem_subBytes_inverse (B : Block) (i : Nat) (h : i < 16) :
    (subBytes .inverse B)[i] = rom .invsbox B[i] := by
  simp [subBytes]

@[simp] theorem matrixAt_shiftRows_forward (B : Block) (r c : Fin 4) :
    matrixAt (shiftRows .forward B) r c = matrixAt B r (c + r) := by
  simp [shiftRows]

@[simp] theorem matrixAt_shiftRows_inverse (B : Block) (r c : Fin 4) :
    matrixAt (shiftRows .inverse B) r c = matrixAt B r (c - r) := by
  simp [shiftRows]

@[simp] theorem matrixAt_mapColumns (f : (a0 a1 a2 a3 : Byte) → Word) (B : Block) (r c : Fin 4) :
    matrixAt (mapColumns f B) r c = (f (matrixAt B 0 c) (matrixAt B 1 c) (matrixAt B 2 c) (matrixAt B 3 c))[r] := by
  simp [mapColumns]

end Sys2Proof.Machine
end

