-- ==== Sys2Proof/Laws/PerInstr.lean ====
section
/-! SUPPORT. Per-instruction laws: the byte of a command lies in its row of the opcode map
(30_encoding.md R75). -/

namespace Sys2Proof.Laws.OpcodeRow

/-- The byte of the command has the row's match under the row's mask (30_encoding.md R75). -/
def Statement (i : Instr) : Prop := encode i &&& rowMask i = rowMatch i

theorem gfmul : Statement .gfmul := rfl
theorem keyexp : Statement .keyexp := rfl
theorem ldst : Statement .ldst := rfl
theorem rdst : Statement .rdst := rfl
theorem rdrk (idx : BitVec 4) : Statement (.rdrk idx) := by unfold Statement; revert idx; decide
theorem subbytesF : Statement .subbytesF := rfl
theorem subbytesI : Statement .subbytesI := rfl
theorem shiftrowsF : Statement .shiftrowsF := rfl
theorem shiftrowsI : Statement .shiftrowsI := rfl
theorem mixcolsF : Statement .mixcolsF := rfl
theorem mixcolsI : Statement .mixcolsI := rfl
theorem addrk (idx : BitVec 4) : Statement (.addrk idx) := by unfold Statement; revert idx; decide
theorem encrypt : Statement .encrypt := rfl
theorem decrypt : Statement .decrypt := rfl

end Sys2Proof.Laws.OpcodeRow
end

