-- ==== Sys2Proof/Laws/Step.lean ====
section
/-! SUPPORT. What a step can do, said once: the inversion of `step` and of `runCommand`, and the answer of a halted engine to
every command. -/

namespace Sys2Proof.Machine

/-- Every command is a `command` with some needs and some effect, so that `command_cases` and `command_next` speak of it. -/
theorem exec_is_command (i : Instr) (s : State) : ∃ n e, exec i s = command n e s := by
  cases i with
  | gfmul => simp only [exec, execGfmul]; exact ⟨_, _, rfl⟩
  | keyexp => simp only [exec, execKeyexp]; exact ⟨_, _, rfl⟩
  | ldst => simp only [exec, execLdst]; exact ⟨_, _, rfl⟩
  | rdst => simp only [exec, execRdst]; exact ⟨_, _, rfl⟩
  | rdrk idx => simp only [exec, execRdrk, refuse]; split <;> exact ⟨_, _, rfl⟩
  | subbytesF => simp only [exec, execSubbytesF, transform]; exact ⟨_, _, rfl⟩
  | subbytesI => simp only [exec, execSubbytesI, transform]; exact ⟨_, _, rfl⟩
  | shiftrowsF => simp only [exec, execShiftrowsF, transform]; exact ⟨_, _, rfl⟩
  | shiftrowsI => simp only [exec, execShiftrowsI, transform]; exact ⟨_, _, rfl⟩
  | mixcolsF => simp only [exec, execMixcolsF, transform]; exact ⟨_, _, rfl⟩
  | mixcolsI => simp only [exec, execMixcolsI, transform]; exact ⟨_, _, rfl⟩
  | addrk idx => simp only [exec, execAddrk, refuse]; split <;> exact ⟨_, _, rfl⟩
  | encrypt => simp only [exec, execEncrypt]; exact ⟨_, _, rfl⟩
  | decrypt => simp only [exec, execDecrypt]; exact ⟨_, _, rfl⟩

/-- A halted engine answers every command in the same way (60_exceptions.md R179). -/
theorem exec_of_halted (i : Instr) {s : State} (h : s.FAULT ≠ 0#3) : exec i s = .next s.refuseHalted := by
  obtain ⟨n, e, he⟩ := exec_is_command i s
  rw [he, command_of_halted n e h]

/-- The command on the ports is decoded and executed, or refused as reserved. -/
theorem runCommand_cases (s : State) :
    (∃ i, decode s.cmd = .ok i ∧ runCommand s = exec i s) ∨
      ∃ e, decode s.cmd = .error e ∧ runCommand s = refuse .rsvd s := by
  unfold runCommand
  cases decode s.cmd with
  | ok i => exact .inl ⟨i, rfl, rfl⟩
  | error e => exact .inr ⟨e, rfl, rfl⟩

/-- If a step answers `t`, it took one of the host's moves, or there was none and nothing changed. -/
theorem step_next {s t : State} (h : step s = .next t) :
    (s.host = [] ∧ t = s) ∨
    (∃ c d rest, s.host = .issue c d :: rest ∧ runCommand ((s.setHost rest).present c d) = .next t) ∨
    (∃ rest, s.host = .sampleStatus :: rest ∧ t = s.setHost rest) ∨
    ∃ p rest, s.host = .reset p :: rest ∧ t = ((s.setHost rest).presentWithReset p).takeReset := by
  unfold step at h
  split at h
  · next hh => exact .inl ⟨hh, by simpa using h.symm⟩
  · next c d rest hh => exact .inr (.inl ⟨c, d, rest, hh, h⟩)
  · next rest hh => exact .inr (.inr (.inl ⟨rest, hh, by simpa using h.symm⟩))
  · next p rest hh => exact .inr (.inr (.inr ⟨p, rest, hh, by simpa using h.symm⟩))

end Sys2Proof.Machine
end

