-- ==== Sys2Proof/Machine/Assembler.lean ====
section
/-! DEFINITION. The assembler syntax (30_encoding.md R80): how a command byte and its data operand are written. Nothing
in the step uses it. -/

namespace Sys2Proof.Machine

/-- One upper-case hexadecimal digit. -/
def hexDigit (n : Nat) : Char := if n < 10 then Char.ofNat (48 + n) else Char.ofNat (55 + n)

/-- A byte as two hexadecimal digits. -/
def hexByte (b : Byte) : String := String.ofList [hexDigit (b.toNat / 16), hexDigit (b.toNat % 16)]

/-- The operands of a line: the index in decimal, or the bytes of `din` the command uses, `D[0]` first (R74, R80). -/
def asmOperands (i : Instr) (din : Bus) : List String :=
  let D := blockOfBus din
  match i with
  | .gfmul => [hexByte D[0], hexByte D[1]]
  | .keyexp => D.toList.map hexByte
  | .ldst => D.toList.map hexByte
  | .rdst => []
  | .rdrk idx => [toString idx.toNat]
  | .subbytesF => []
  | .subbytesI => []
  | .shiftrowsF => []
  | .shiftrowsI => []
  | .mixcolsF => []
  | .mixcolsI => []
  | .addrk idx => [toString idx.toNat]
  | .encrypt => D.toList.map hexByte
  | .decrypt => D.toList.map hexByte

/-- A line of a program: the mnemonic and its operands, or `.byte 0xNN` for a reserved encoding (R80). -/
def asmLine (cmd : Byte) (din : Bus) : String :=
  match decode cmd with
  | .ok i => " ".intercalate (i.mnemonic :: asmOperands i din)
  | .error _ => ".byte 0x" ++ hexByte cmd

end Sys2Proof.Machine
end

