-- ==== Sys2Proof/Tests/Slice0.lean ====
section
/-! SUPPORT. Tests of the model, their expected values taken from spec/ (the file is named at each), and for every statement
with hypotheses a witness that meets them. -/

namespace Sys2Proof.Tests

open Sys2Proof.Machine

/-! ## Helpers -/

/-- The key of 95_test_vectors.md. -/
def docKey : Bus := 0x0F1571C947D9E8590CB7ADD6AF7F6798#128

/-- The plaintext of 95_test_vectors.md. -/
def plaintext : Bus := 0x0123456789ABCDEFFEDCBA9876543210#128

/-- The ciphertext of 95_test_vectors.md section 5. -/
def ciphertext : Bus := 0xFF0B844A0853BF7C6934AB4364148FB9#128

/-- An engine with `d` on the data bus. -/
def withDin (d : Bus) : State := { State.reset with din := d }

/-- An engine with the block `b` loaded. -/
def loaded (b : Bus) : State := { State.reset with STATE := blockOfBus b, ST_VALID := true }

/-- An engine with the schedule of the key `k`, and `d` on the data bus. -/
def keyed (k d : Bus) : State := { State.reset with RK := keyExpansion (blockOfBus k), RK_VALID := true, din := d }

/-- An engine with a block and a schedule, both valid. -/
def ready : State := { State.reset with ST_VALID := true, RK_VALID := true }

/-- A halted engine. -/
def stopped : State := { State.reset with FAULT := 3#3 }

/-- The response after a step. -/
def responseOf : Host.Outcome State Fault Refusal → Option Response
  | .next t => t.response
  | .fault _ => none
  | .refused _ => none

/-- The state register after a step, as a bus value. -/
def blockAfter : Host.Outcome State Fault Refusal → Option Bus
  | .next t => some (busOfBlock t.STATE)
  | .fault _ => none
  | .refused _ => none

/-- The status output after a step. -/
def statusAfter : Host.Outcome State Fault Refusal → Option (BitVec 5)
  | .next t => some t.status
  | .fault _ => none
  | .refused _ => none

/-- A round key after a step, as a bus value. -/
def roundKeyAfter (r : Fin 11) : Host.Outcome State Fault Refusal → Option Bus
  | .next t => some (busOfBlock t.RK[r])
  | .fault _ => none
  | .refused _ => none

/-! ## Well-formedness: the index check refuses 11 to 15 (30_encoding.md R73) -/

theorem test_wf_refuses_rdrk_11 : (Instr.rdrk 11#4).wf = false := by decide
theorem test_wf_refuses_addrk_15 : (Instr.addrk 15#4).wf = false := by decide
theorem test_wf_accepts_rdrk_10 : (Instr.rdrk 10#4).wf = true := by decide

/-! ## Decoding, the bytes written out as `op` and `arg` of 30_encoding.md R75 -/

theorem test_decode_gfmul : decode (0b0001#4 ++ 0b0000#4) = .ok .gfmul := by decide
theorem test_decode_keyexp : decode (0b0010#4 ++ 0b0000#4) = .ok .keyexp := by decide
theorem test_decode_ldst : decode (0b0011#4 ++ 0b0000#4) = .ok .ldst := by decide
theorem test_decode_rdst : decode (0b0100#4 ++ 0b0000#4) = .ok .rdst := by decide
theorem test_decode_rdrk : decode (0b0101#4 ++ 0b1010#4) = .ok (.rdrk 10#4) := by decide
theorem test_decode_subbytesF : decode (0b0110#4 ++ 0b0000#4) = .ok .subbytesF := by decide
theorem test_decode_subbytesI : decode (0b0110#4 ++ 0b0001#4) = .ok .subbytesI := by decide
theorem test_decode_shiftrowsF : decode (0b0111#4 ++ 0b0000#4) = .ok .shiftrowsF := by decide
theorem test_decode_shiftrowsI : decode (0b0111#4 ++ 0b0001#4) = .ok .shiftrowsI := by decide
theorem test_decode_mixcolsF : decode (0b1000#4 ++ 0b0000#4) = .ok .mixcolsF := by decide
theorem test_decode_mixcolsI : decode (0b1000#4 ++ 0b0001#4) = .ok .mixcolsI := by decide
theorem test_decode_addrk : decode (0b1001#4 ++ 0b1111#4) = .ok (.addrk 15#4) := by decide
theorem test_decode_encrypt : decode (0b1010#4 ++ 0b0000#4) = .ok .encrypt := by decide
theorem test_decode_decrypt : decode (0b1010#4 ++ 0b0001#4) = .ok .decrypt := by decide
theorem test_decode_format_n_reserved : decode 0x11#8 = .error .reservedArgN := by decide
theorem test_decode_format_d_reserved : decode 0xA2#8 = .error .reservedArgD := by decide
theorem test_decode_all_ones : decode 0xFF#8 = .error .reservedOp := by decide
theorem test_decode_no_byte : decodeBytes [] = .error .noByte := by decide
theorem test_decode_one_byte : decodeBytes [0x40#8, 0x10#8] = .ok (.rdst, [0x10#8]) := by decide
theorem test_table_word : decodeTableWord 8 0x9A = some (.addrk 10#4) := by decide
theorem test_table_word_reserved : decodeTableWord 8 0x00 = none := by decide

/-! ## GFMUL (95_test_vectors.md section 3) -/

theorem test_gfmul_general : responseOf (exec .gfmul (withDin 0x5783AAAAAAAAAAAAAAAAAAAAAAAAAAAA#128)) =
    some ⟨0#3, 0xC1000000000000000000000000000000#128⟩ := by decide
theorem test_gfmul_reduction : responseOf (exec .gfmul (withDin 0x02800000000000000000000000000000#128)) =
    some ⟨0#3, 0x1B000000000000000000000000000000#128⟩ := by decide

/-! ## Tables (41_sbox.md R111, 40_galois_field.md R97) -/

theorem test_affine_of_f6 : affine 0xF6#8 = 0x7B#8 := by decide
theorem test_sbox_53 : rom .sbox 0x53#8 = 0xED#8 := by decide
theorem test_invsbox_ed : rom .invsbox 0xED#8 = 0x53#8 := by decide
theorem test_mul13_ff : rom .mul13 0xFF#8 = 0x97#8 := by decide

/-! ## KEYEXP and RDRK (95_test_vectors.md section 4) -/

theorem test_keyexp_round_key_10 : roundKeyAfter 10 (exec .keyexp (withDin docKey)) =
    some 0xB48EF352BA98134E7F4D592086261876#128 := by decide
theorem test_keyexp_status : statusAfter (exec .keyexp (withDin docKey)) = some 0b00001#5 := by decide
theorem test_rdrk_1 : responseOf (exec (.rdrk 1#4) (keyed docKey 0#128)) =
    some ⟨0#3, 0xDC9037B09B49DFE997FE723F388115A7#128⟩ := by decide
theorem test_rdrk_11_no_key : statusAfter (exec (.rdrk 11#4) State.reset) = some 0b01000#5 := by decide

/-! ## The state commands (95_test_vectors.md sections 6 and 7) -/

theorem test_ldst : blockAfter (exec .ldst (withDin 0xEA0465858345#128)) = some 0xEA0465858345#128 := by decide
theorem test_rdst : responseOf (exec .rdst (loaded plaintext)) = some ⟨0#3, plaintext⟩ := by decide
theorem test_rdst_no_state : statusAfter (exec .rdst State.reset) = some 0b10000#5 := by decide
theorem test_subbytesF : blockAfter (exec .subbytesF (loaded 0xEA04658583455D965C3398B0F02DADC5#128)) =
    some 0x87F24D97EC6E4C904AC346E78CD895A6#128 := by decide
theorem test_subbytesI : blockAfter (exec .subbytesI (loaded 0x87F24D97EC6E4C904AC346E78CD895A6#128)) =
    some 0xEA04658583455D965C3398B0F02DADC5#128 := by decide
theorem test_shiftrowsF : blockAfter (exec .shiftrowsF (loaded 0x000102030405060708090A0B0C0D0E0F#128)) =
    some 0x00050A0F04090E03080D02070C01060B#128 := by decide
theorem test_shiftrowsI : blockAfter (exec .shiftrowsI (loaded 0x000102030405060708090A0B0C0D0E0F#128)) =
    some 0x000D0A0704010E0B0805020F0C090603#128 := by decide
theorem test_mixcolsF : blockAfter (exec .mixcolsF (loaded 0x876E46A6F24CE78C4D904AD897ECC395#128)) =
    some 0x473794ED40D4E4A5A3703AA64C9F42BC#128 := by decide
theorem test_mixcolsI : blockAfter (exec .mixcolsI (loaded 0x473794ED40D4E4A5A3703AA64C9F42BC#128)) =
    some 0x876E46A6F24CE78C4D904AD897ECC395#128 := by decide
theorem test_addrk_0 : blockAfter (exec (.addrk 0#4) { keyed docKey 0#128 with STATE := blockOfBus plaintext, ST_VALID := true }) =
    some 0x0E3634AECE7225B6F26B174ED92B5588#128 := by decide
theorem test_addrk_key_before_state : statusAfter (exec (.addrk 0#4) State.reset) = some 0b01100#5 := by decide

/-! ## ENCRYPT and DECRYPT (95_test_vectors.md section 5) -/

set_option maxRecDepth 4000 in
theorem test_encrypt : responseOf (exec .encrypt (keyed docKey plaintext)) = some ⟨0#3, ciphertext⟩ := by decide
theorem test_encrypt_clears_st_valid :
    statusAfter (exec .encrypt { keyed docKey plaintext with ST_VALID := true }) = some 0b00001#5 := by decide
set_option maxRecDepth 4000 in
theorem test_decrypt : responseOf (exec .decrypt (keyed docKey ciphertext)) = some ⟨0#3, plaintext⟩ := by decide
theorem test_decrypt_no_key : statusAfter (exec .decrypt (loaded 0#128)) = some 0b01110#5 := by decide

/-! ## Steps (95_test_vectors.md section 7 and program P5) -/

theorem test_step_reserved_byte : statusAfter (step (State.reset.withFetchWord 8 0x00)) = some 0b00100#5 := by decide
theorem test_step_halted : responseOf (step (stopped.withFetchWord 8 0x00)) = some ⟨5#3, 0#128⟩ := by decide
theorem test_step_reset : statusAfter (step (stopped.setHost [.reset (some (0x10#8, 0#128))])) = some 0b00000#5 := by decide
theorem test_step_fetches_first : responseOf (step (State.reset.withFetchWord 8 0xA0)) = some ⟨3#3, 0#128⟩ := by decide

/-! ## Assembler lines (30_encoding.md R80) -/

theorem test_asm_gfmul : asmLine 0x10#8 0x57830000000000000000000000000000#128 = "GFMUL 57 83" := by decide
theorem test_asm_rdrk : asmLine 0x5A#8 0#128 = "RDRK 10" := by decide
theorem test_asm_reserved : asmLine 0x00#8 0#128 = ".byte 0x00" := by decide

/-! ## Witnesses: the hypotheses of each statement together, and of each clause -/

theorem witness_DecodeAndEncodeAgree : decode 0x5F#8 = .ok (.rdrk 15#4) := by decide
theorem witness_DecodeSelectsRowByMask :
    decode 0x9F#8 = .ok (.addrk 15#4) ∧ 0x9F#8 &&& rowMask (.addrk 0#4) = rowMatch (.addrk 0#4) := by decide
theorem witness_StepRunsTheDecodedCommand :
    (State.reset.setHost [.issue 0xA1#8 1#128]).host = .issue 0xA1#8 1#128 :: [] ∧ decode 0xA1#8 = .ok .decrypt := by decide
theorem witness_ReservedBytesAreRefused :
    (State.reset.setHost [.issue 0xB0#8 0#128]).host = .issue 0xB0#8 0#128 :: [] ∧ reservedByte 0xB0#8 = true ∧
    (State.reset.setHost [.issue 0xB0#8 0#128]).FAULT = 0#3 := by decide
theorem witness_ReservedBytesAreRefused_boundaries : reservedByte 0x0F#8 = true ∧ reservedByte 0x10#8 = false ∧
    reservedByte 0x4F#8 = true ∧ reservedByte 0x50#8 = false ∧ reservedByte 0x62#8 = true ∧ reservedByte 0x61#8 = false ∧
    reservedByte 0xAF#8 = true ∧ reservedByte 0xFF#8 = true := by decide
theorem witness_HaltedEngineRefusesEveryByte : (stopped.setHost [.issue 0x10#8 0#128]).FAULT ≠ 0#3 ∧
    (stopped.setHost [.issue 0x10#8 0#128]).host = .issue 0x10#8 0#128 :: [] := by decide
theorem witness_ResetClearsFaultAndValidBits :
    (stopped.setHost [.reset (some (0x20#8, docKey))]).host = .reset (some (0x20#8, docKey)) :: [] := by decide
theorem witness_ResetClearsFaultAndValidBits_only :
    (∃ t, step (stopped.setHost [.reset none]) = .next t ∧ (stopped.setHost [.reset none]).FAULT ≠ 0#3 ∧ t.FAULT = 0#3) ∧
    ∃ t, step (ready.setHost [.reset none]) = .next t ∧ (ready.setHost [.reset none]).RK_VALID = true ∧ t.RK_VALID = false :=
  ⟨⟨_, rfl, by decide, by decide⟩, _, rfl, by decide, by decide⟩
theorem witness_EngineHoldsStateBetweenCommands :
    ready.host = [] ∧ (ready.setHost [.sampleStatus]).host = .sampleStatus :: [] := by decide
theorem witness_EveryCommandGivesAResponse :
    (ready.setHost [.issue 0x00#8 0#128]).host = .issue 0x00#8 0#128 :: [] := by decide
theorem witness_AdmissionOrder : byteCode 0x00#8 stopped = 5#3 ∧ byteCode 0x00#8 State.reset = 1#3 ∧
    byteCode 0x9B#8 State.reset = 2#3 ∧ byteCode 0x9A#8 State.reset = 3#3 ∧ byteCode 0x40#8 State.reset = 4#3 ∧
    byteCode 0x10#8 State.reset = 0#3 := by decide
theorem witness_FaultEntryWritesOnlyFault :
    (State.reset.setHost [.issue 0x5B#8 0#128]).host = .issue 0x5B#8 0#128 :: [] ∧
    (State.reset.setHost [.issue 0x5B#8 0#128]).FAULT = 0#3 ∧
    byteCode 0x5B#8 (State.reset.setHost [.issue 0x5B#8 0#128]) ≠ 0#3 := by decide
theorem witness_OnlyResetLeavesTheHaltedCondition :
    ∃ t, step (stopped.setHost [.reset none]) = .next t ∧ (stopped.setHost [.reset none]).FAULT ≠ 0#3 ∧
      t.FAULT ≠ (stopped.setHost [.reset none]).FAULT := ⟨_, rfl, by decide, by decide⟩
theorem witness_HostKeepingTheOrderNeverFaults : State.reset.Fresh ∧
    programAllowed [] [(.keyexp, docKey), (.ldst, plaintext), (.addrk 10#4, 0#128), (.encrypt, plaintext), (.rdrk 0#4, 0#128)] =
      true := ⟨⟨rfl, rfl, rfl⟩, by decide⟩
theorem witness_RunOutcomeOfEachResponse :
    (State.reset.setHost [.issue 0x10#8 0#128]).host = .issue 0x10#8 0#128 :: [] ∧
    stopped.FAULT ≠ 0#3 ∧ (State.reset.FAULT = 0#3 ∧ reservedByte 0x0F#8 = true ∧ reservedByte 0xB0#8 = true) ∧
    (decode 0x10#8 = .ok .gfmul ∧ responseCode .gfmul State.reset = 0#3 ∧ responseCode .gfmul stopped = 5#3) ∧
    (decode 0x9B#8 = .ok (.addrk 11#4) ∧ responseCode (.addrk 11#4) State.reset = 2#3) ∧
    (decode 0xA0#8 = .ok .encrypt ∧ responseCode .encrypt State.reset = 3#3) ∧
    (decode 0x81#8 = .ok .mixcolsI ∧ responseCode .mixcolsI State.reset = 4#3) := by decide
theorem witness_free_commands : State.reset.FAULT = 0#3 ∧ stopped.FAULT ≠ 0#3 := by decide
theorem witness_RdrkCommand : stopped.FAULT ≠ 0#3 ∧ (State.reset.FAULT = 0#3 ∧ 10 < (11#4).toNat) ∧
    (State.reset.FAULT = 0#3 ∧ (10#4).toNat ≤ 10 ∧ State.reset.RK_VALID = false) ∧
    ((10#4).toNat ≤ 10 ∧ ready.FAULT = 0#3 ∧ ready.RK_VALID = true) := by decide
theorem witness_state_commands : stopped.FAULT ≠ 0#3 ∧ (State.reset.FAULT = 0#3 ∧ State.reset.ST_VALID = false) ∧
    (ready.FAULT = 0#3 ∧ ready.ST_VALID = true) := by decide
theorem witness_AddrkCommand : stopped.FAULT ≠ 0#3 ∧ (ready.FAULT = 0#3 ∧ 10 < (15#4).toNat) ∧
    (State.reset.FAULT = 0#3 ∧ (0#4).toNat ≤ 10 ∧ State.reset.RK_VALID = false) ∧
    ({ ready with ST_VALID := false }.FAULT = 0#3 ∧ (10#4).toNat ≤ 10 ∧ { ready with ST_VALID := false }.RK_VALID = true ∧
      { ready with ST_VALID := false }.ST_VALID = false) ∧
    ((10#4).toNat ≤ 10 ∧ ready.FAULT = 0#3 ∧ ready.RK_VALID = true ∧ ready.ST_VALID = true) := by decide
theorem witness_cipher_commands : stopped.FAULT ≠ 0#3 ∧ (State.reset.FAULT = 0#3 ∧ State.reset.RK_VALID = false) ∧
    (ready.FAULT = 0#3 ∧ ready.RK_VALID = true) := by decide
theorem witness_FrameOfReadingCommands : ∃ t, exec (.rdrk 10#4) ready = .next t ∧ responseCode (.rdrk 10#4) ready = 0#3 :=
  ⟨_, rfl, by decide⟩
theorem witness_FrameOfStateCommands_accepted : ∃ t, exec .mixcolsF ready = .next t ∧ responseCode .mixcolsF ready = 0#3 :=
  ⟨_, rfl, by decide⟩
theorem witness_FrameOfStateCommands_refused :
    ∃ t, exec (.addrk 11#4) ready = .next t ∧ responseCode (.addrk 11#4) ready ≠ 0#3 := ⟨_, rfl, by decide⟩
theorem witness_FrameOfKeyAndCipherCommands_accepted : ∃ t, exec .keyexp ready = .next t ∧ responseCode .keyexp ready = 0#3 :=
  ⟨_, rfl, by decide⟩
theorem witness_FrameOfKeyAndCipherCommands_refused :
    ∃ t, exec .encrypt State.reset = .next t ∧ responseCode .encrypt State.reset ≠ 0#3 := ⟨_, rfl, by decide⟩
theorem witness_OnlyListedMovesWrite :
    ∃ t, step (State.reset.setHost [.issue 0x20#8 docKey]) = .next t ∧
      t.RK_VALID ≠ (State.reset.setHost [.issue 0x20#8 docKey]).RK_VALID := ⟨_, rfl, by decide⟩
theorem witness_OnlyListedMovesWrite_block :
    ∃ t, step (State.reset.setHost [.issue 0x30#8 docKey]) = .next t ∧
      t.ST_VALID ≠ (State.reset.setHost [.issue 0x30#8 docKey]).ST_VALID ∧
      t.STATE ≠ (State.reset.setHost [.issue 0x30#8 docKey]).STATE := ⟨_, rfl, by decide, by decide⟩
theorem witness_UnusedOperandBytesAreIgnored : (∃ t, exec .rdst ready = .next t ∧ readsSTATE .rdst = true) ∧
    ∃ t, exec .gfmul ready = .next t ∧ (1#128).extractLsb' 112 16 = ready.din.extractLsb' 112 16 :=
  ⟨⟨_, rfl, by decide⟩, _, rfl, by decide⟩
theorem witness_MultiplyFieldLaws : multiply 0x00#8 0x53#8 = 0x00#8 ∧ (0x03#8 : Byte) ≠ 0#8 := by decide
theorem witness_SboxIsAffineOfInverse : multiply 0x03#8 0xF6#8 = 1#8 ∧ (7 : Nat) < 8 := by decide
theorem witness_RconIsSuccessiveDoubling : (1 ≤ 1 ∧ 1 < 10) ∧ 1 ≤ 9 ∧ 9 < 10 := by decide
theorem witness_ShiftRowsLaws : ∀ r c : Fin 4, Block.zero[r.val + 4 * c.val] = Block.zero[r.val] := by decide
theorem witness_MixColumnsLaws : ∀ r : Fin 4, Block.zero[r.val + 4 * (3 : Fin 4).val] = 0x00#8 := by decide
theorem witness_TransformCommandsUndoEachOther :
    ready.FAULT = 0#3 ∧ ready.ST_VALID = true ∧ ready.RK_VALID = true ∧ (10#4).toNat ≤ 10 := by decide
theorem witness_KeyScheduleRecurrence : (3 < 4) ∧ (4 ≤ 40 ∧ 40 < 44 ∧ 40 % 4 = 0) ∧ 4 ≤ 43 ∧ 43 < 44 ∧ 43 % 4 ≠ 0 := by decide
theorem witness_KeyScheduleOnRoundKeys : (1 ≤ 10 ∧ 10 ≤ 10) ∧ 4 ≤ 15 ∧ 15 < 16 := by decide

/-- The blocks of an encryption, stage by stage. -/
def encSequence (n : Nat) : Block :=
  if h : n ≤ 11 then encStages Block.zero Schedule.zero n h else Block.zero

/-- The blocks of a decryption, stage by stage. -/
def decSequence (n : Nat) : Block :=
  if h : n ≤ 11 then decStages Block.zero Schedule.zero n h else Block.zero

theorem witness_EncryptRunsElevenStages :
    encSequence 1 = addRoundKey (encSequence 0) Schedule.zero[0] ∧
    (∀ (i : Nat) (h : 1 ≤ i ∧ i ≤ 9), encSequence (i + 1) =
      addRoundKey (mixColumns .forward (shiftRows .forward (subBytes .forward (encSequence i)))) (Schedule.zero[i]'(by omega))) ∧
    encSequence 11 = addRoundKey (shiftRows .forward (subBytes .forward (encSequence 10))) Schedule.zero[10] := by
  refine ⟨rfl, fun i h => ?_, rfl⟩
  obtain ⟨h1, h9⟩ := h
  interval_cases i <;> rfl

theorem witness_DecryptRunsElevenStages :
    decSequence 1 = addRoundKey (decSequence 0) Schedule.zero[10] ∧
    (∀ (j : Nat) (h : 1 ≤ j ∧ j ≤ 9), decSequence (j + 1) =
      mixColumns .inverse (addRoundKey (subBytes .inverse (shiftRows .inverse (decSequence j)))
        (Schedule.zero[10 - j]'(by omega)))) ∧
    decSequence 11 = addRoundKey (subBytes .inverse (shiftRows .inverse (decSequence 10))) Schedule.zero[0] := by
  refine ⟨rfl, fun j h => ?_, rfl⟩
  obtain ⟨h1, h9⟩ := h
  interval_cases j <;> rfl

theorem witness_CipherCommandsUndoEachOther : ready.FAULT = 0#3 ∧ ready.RK_VALID = true := by decide
theorem witness_SingleTransformsEqualTheCipher : (keyed docKey plaintext).FAULT = 0#3 ∧ (keyed docKey plaintext).RK_VALID = true := by
  decide
theorem witness_StepKeepsTheInvariant : State.reset.Inv ∧ ∃ t, step State.reset = .next t :=
  ⟨⟨by decide, fun h => absurd h (by decide), fun r h => absurd h (by simp [State.reset])⟩, _, rfl⟩
theorem witness_UnspecifiedBytesAreNeverObserved : State.reset.Agrees { State.reset with STATE := blockOfBus docKey } :=
  ⟨rfl, fun h => absurd h (by decide), rfl, fun _ => rfl, rfl, rfl, rfl, rfl, rfl⟩

end Sys2Proof.Tests
end

section
/-! PROOF. The commands seen as one shape: what a command must be checked for, what it writes and what it answers, and that
`exec` is admission by those needs followed by those writes and that answer. -/

namespace Sys2Proof.Machine

/-! ## The parts of a command -/

/-- What a command is checked for, read off the admission table (60_exceptions.md R176). -/
def Instr.needs (i : Instr) : Needs where
  encoding := if badIndex i then some .idx else none
  rk := readsRK i
  st := readsSTATE i

/-- The round key an index field names. An illegal index names none; the zero block stands there and no accepted command
reads it. -/
def State.roundKeyAt (s : State) (idx : BitVec 4) : Block :=
  match roundKeyNumber idx with
  | none => Block.zero
  | some r => s.RK[r]

/-- The registers after an accepted command, its response not yet given. -/
def State.writes (s : State) : Instr → State
  | .gfmul | .rdst | .rdrk _ => s
  | .keyexp => (s.setRK (keyExpansion s.operand)).setRK_VALID true
  | .ldst => (s.setSTATE s.operand).setST_VALID true
  | .subbytesF => s.setSTATE (subBytes .forward s.STATE)
  | .subbytesI => s.setSTATE (subBytes .inverse s.STATE)
  | .shiftrowsF => s.setSTATE (shiftRows .forward s.STATE)
  | .shiftrowsI => s.setSTATE (shiftRows .inverse s.STATE)
  | .mixcolsF => s.setSTATE (mixColumns .forward s.STATE)
  | .mixcolsI => s.setSTATE (mixColumns .inverse s.STATE)
  | .addrk idx => s.setSTATE (addRoundKey s.STATE (s.roundKeyAt idx))
  | .encrypt | .decrypt => s.loseSTATE.setST_VALID false

/-- The data result of an accepted command (10_state.md R33). -/
def State.result (s : State) : Instr → Bus
  | .gfmul => busOfByte (multiply s.operand[0] s.operand[1])
  | .rdst => busOfBlock s.STATE
  | .rdrk idx => busOfBlock (s.roundKeyAt idx)
  | .encrypt => busOfBlock (encryptBlock s.operand s.RK)
  | .decrypt => busOfBlock (decryptBlock s.operand s.RK)
  | .keyexp | .ldst | .subbytesF | .subbytesI | .shiftrowsF | .shiftrowsI | .mixcolsF | .mixcolsI | .addrk _ => zeroBus

/-- The state after an accepted command. -/
def State.accepted (i : Instr) (s : State) : State := (s.writes i).accept (s.result i)

theorem roundKeyAt_of_number {idx : BitVec 4} {r : Fin 11} (h : roundKeyNumber idx = some r) (s : State) :
    s.roundKeyAt idx = s.RK[r] := by
  rw [State.roundKeyAt, h]

/-- A byte that alone decides the refusal is refused whatever else the command needs or does. -/
theorem command_of_encoding {n : Needs} {c : Cause} (h : n.encoding = some c) (e : State → State) (s : State) :
    command n e s = refuse c s := by
  by_cases hf : s.FAULT = 0#3
  · have ha : admission n s = .raise c := by rw [admission_of_running n hf, h]
    rw [refuse_of_running c hf, command_of_admission_raise e ha]
  · rw [refuse_of_halted c hf, command_of_halted n e hf]

/-- An index field is illegal, or it names a round key. -/
theorem roundKeyNumber_cases (idx : BitVec 4) :
    (10 < idx.toNat ∧ roundKeyNumber idx = none) ∨ (¬ 10 < idx.toNat ∧ ∃ r, roundKeyNumber idx = some r) := by
  by_cases h : 10 < idx.toNat
  · exact .inl ⟨h, roundKeyNumber_of_gt h⟩
  · exact .inr ⟨h, _, roundKeyNumber_of_le (by omega)⟩

theorem execRdrk_eq_command (idx : BitVec 4) (s : State) :
    execRdrk idx s = command (Instr.needs (.rdrk idx)) (State.accepted (.rdrk idx)) s := by
  rcases roundKeyNumber_cases idx with ⟨hi, hn⟩ | ⟨hi, r, hn⟩
  · rw [command_of_encoding (c := .idx) (by simp [Instr.needs, badIndex, hi]), execRdrk, hn]
  · have he : State.accepted (.rdrk idx) = fun s => s.accept (busOfBlock s.RK[r]) :=
      funext fun s => by simp [State.accepted, State.writes, State.result, roundKeyAt_of_number hn]
    simp [execRdrk, hn, Instr.needs, badIndex, readsRK, readsSTATE, hi, he]

theorem execAddrk_eq_command (idx : BitVec 4) (s : State) :
    execAddrk idx s = command (Instr.needs (.addrk idx)) (State.accepted (.addrk idx)) s := by
  rcases roundKeyNumber_cases idx with ⟨hi, hn⟩ | ⟨hi, r, hn⟩
  · rw [command_of_encoding (c := .idx) (by simp [Instr.needs, badIndex, hi]), execAddrk, hn]
  · have he : State.accepted (.addrk idx) = fun s => (s.setSTATE (addRoundKey s.STATE s.RK[r])).accept zeroBus :=
      funext fun s => by simp [State.accepted, State.writes, State.result, roundKeyAt_of_number hn]
    simp [execAddrk, hn, Instr.needs, badIndex, readsRK, readsSTATE, hi, he]

/-- Every command is admission by its needs, then its writes and its answer. -/
theorem exec_eq_command (i : Instr) (s : State) : exec i s = command (Instr.needs i) (State.accepted i) s := by
  cases i with
  | rdrk idx => exact execRdrk_eq_command idx s
  | addrk idx => exact execAddrk_eq_command idx s
  | _ => rfl

/-! ## Admission and the response code -/

/-- The code an admission decision is answered with. -/
def Admission.code : Admission → BitVec 3
  | .accepted => okCode
  | .halted => haltedCode
  | .raise c => c.code

theorem admissionCode_eq_zero_iff (a : Admission) : a.code = 0#3 ↔ a = .accepted := by
  cases a with
  | accepted => simp [Admission.code, okCode]
  | halted => simp [Admission.code, haltedCode]
  | raise c => simp [Admission.code, causeCode_ne_zero]

/-- The code of R176 is the code of the admission decision. -/
theorem responseCode_eq_admissionCode (i : Instr) (s : State) :
    responseCode i s = (admission (Instr.needs i) s).code := by
  by_cases hf : s.FAULT = 0#3
  · rw [admission_of_running _ hf]
    rw [responseCode, if_neg (by simp [hf]), Instr.needs]
    cases badIndex i
    · cases readsRK i && !s.RK_VALID
      · cases readsSTATE i && !s.ST_VALID <;> rfl
      · rfl
    · rfl
  · rw [admission_of_halted _ hf, responseCode, if_pos hf]
    rfl

theorem responseCode_eq_zero_iff (i : Instr) (s : State) :
    responseCode i s = 0#3 ↔ admission (Instr.needs i) s = .accepted := by
  rw [responseCode_eq_admissionCode, admissionCode_eq_zero_iff]

/-- What is known of the state once a command is accepted. -/
theorem admission_accepted {n : Needs} {s : State} (h : admission n s = .accepted) :
    s.FAULT = 0#3 ∧ (n.rk = true → s.RK_VALID = true) ∧ (n.st = true → s.ST_VALID = true) := by
  rcases admission_cases n s with ⟨_, ha⟩ | ⟨_, _, _, ha⟩ | ⟨_, _, _, _, ha⟩ | ⟨_, _, _, _, _, ha⟩ | ⟨hf, _, hk, hs, _⟩
  case inr.inr.inr.inr => exact ⟨hf, hk, hs⟩
  all_goals simp [ha] at h

theorem admission_halted {n : Needs} {s : State} (h : admission n s = .halted) : s.FAULT ≠ 0#3 := by
  intro hf
  rcases admission_cases n s with ⟨hn, _⟩ | ⟨_, _, _, ha⟩ | ⟨_, _, _, _, ha⟩ | ⟨_, _, _, _, _, ha⟩ | ⟨_, _, _, _, ha⟩
  case inl => exact hn hf
  all_goals simp [ha] at h

theorem admission_raise {n : Needs} {s : State} {c : Cause} (h : admission n s = .raise c) : s.FAULT = 0#3 := by
  by_contra hf
  simp [admission_of_halted n hf] at h

/-- If a command answers `t`, it was accepted, or refused by a halted engine, or refused with a fault entry. -/
theorem exec_next {i : Instr} {s t : State} (h : exec i s = .next t) :
    (responseCode i s = 0#3 ∧ t = s.accepted i) ∨
    (responseCode i s ≠ 0#3 ∧ s.FAULT ≠ 0#3 ∧ t = s.refuseHalted) ∨
    (responseCode i s ≠ 0#3 ∧ s.FAULT = 0#3 ∧ ∃ c, t = s.raiseFault c) := by
  rw [exec_eq_command] at h
  rw [Ne, responseCode_eq_zero_iff]
  rcases command_next h with ⟨ha, ht⟩ | ⟨ha, ht⟩ | ⟨c, ha, ht⟩
  · exact .inl ⟨ha, ht⟩
  · exact .inr (.inl ⟨by simp [ha], admission_halted ha, ht⟩)
  · exact .inr (.inr ⟨by simp [ha], admission_raise ha, c, ht⟩)

/-! ## What the writes of a command leave unchanged -/

section
variable (s : State) (i : Instr)

@[simp] theorem writes_FAULT : (s.writes i).FAULT = s.FAULT := by cases i <;> rfl
@[simp] theorem writes_cmd : (s.writes i).cmd = s.cmd := by cases i <;> rfl
@[simp] theorem writes_din : (s.writes i).din = s.din := by cases i <;> rfl
@[simp] theorem writes_host : (s.writes i).host = s.host := by cases i <;> rfl

@[simp] theorem accepted_STATE : (s.accepted i).STATE = (s.writes i).STATE := rfl
@[simp] theorem accepted_ST_VALID : (s.accepted i).ST_VALID = (s.writes i).ST_VALID := rfl
@[simp] theorem accepted_RK : (s.accepted i).RK = (s.writes i).RK := rfl
@[simp] theorem accepted_RK_VALID : (s.accepted i).RK_VALID = (s.writes i).RK_VALID := rfl
@[simp] theorem accepted_FAULT : (s.accepted i).FAULT = s.FAULT := by simp [State.accepted]
@[simp] theorem accepted_cmd : (s.accepted i).cmd = s.cmd := by simp [State.accepted]
@[simp] theorem accepted_din : (s.accepted i).din = s.din := by simp [State.accepted]
@[simp] theorem accepted_response : (s.accepted i).response = some ⟨okCode, s.result i⟩ := rfl
@[simp] theorem accepted_host : (s.accepted i).host = s.host := by simp [State.accepted]
@[simp] theorem accepted_draws : (s.accepted i).draws = (s.writes i).draws := rfl

/-- Only KEYEXP writes the schedule and its valid bit. -/
theorem writes_RK_or_keyexp : ((s.writes i).RK = s.RK ∧ (s.writes i).RK_VALID = s.RK_VALID) ∨ i = .keyexp := by
  cases i <;> simp [State.writes]

/-- Only LDST, ENCRYPT and DECRYPT write the valid bit of the block. -/
theorem writes_ST_VALID_or : (s.writes i).ST_VALID = s.ST_VALID ∨ i = .ldst ∨ i = .encrypt ∨ i = .decrypt := by
  cases i <;> simp [State.writes]

/-- Only LDST, the round transforms, ADDRK, ENCRYPT and DECRYPT write the block. -/
theorem writes_STATE_or : (s.writes i).STATE = s.STATE ∨ (∃ idx, i = .addrk idx) ∨ i = .ldst ∨ i = .subbytesF ∨
    i = .subbytesI ∨ i = .shiftrowsF ∨ i = .shiftrowsI ∨ i = .mixcolsF ∨ i = .mixcolsI ∨ i = .encrypt ∨ i = .decrypt := by
  cases i <;> simp [State.writes]

end

/-! ## The host's moves -/

theorem step_of_idle {s : State} (h : s.host = []) : step s = .next s := by
  rw [step, h]

theorem step_of_issue {s : State} {b : Byte} {d : Bus} {rest : List HostMove} (h : s.host = .issue b d :: rest) :
    step s = runCommand ((s.setHost rest).present b d) := by
  rw [step, h]

theorem step_of_sample {s : State} {rest : List HostMove} (h : s.host = .sampleStatus :: rest) :
    step s = .next (s.setHost rest) := by
  rw [step, h]

theorem step_of_reset {s : State} {p : Option (Byte × Bus)} {rest : List HostMove} (h : s.host = .reset p :: rest) :
    step s = .next ((s.setHost rest).presentWithReset p).takeReset := by
  rw [step, h]

theorem runCommand_of_decode {s : State} {i : Instr} (h : decode s.cmd = .ok i) : runCommand s = exec i s := by
  rw [runCommand, h]

/-- The byte on the ports is answered: its command is accepted, or the engine is halted, or a fault is entered. -/
theorem runCommand_answers (s : State) :
    (∃ i, decode s.cmd = .ok i ∧ s.FAULT = 0#3 ∧ runCommand s = .next (s.accepted i)) ∨
    (s.FAULT ≠ 0#3 ∧ runCommand s = .next s.refuseHalted) ∨
    (s.FAULT = 0#3 ∧ ∃ c, runCommand s = .next (s.raiseFault c)) := by
  rcases runCommand_cases s with ⟨i, hd, hr⟩ | ⟨_, _, hr⟩
  · rw [hr, exec_eq_command]
    rcases command_cases (Instr.needs i) (State.accepted i) s with ⟨ha, hc⟩ | ⟨ha, hc⟩ | ⟨c, ha, hc⟩
    · exact .inl ⟨i, hd, (admission_accepted ha).1, hc⟩
    · exact .inr (.inl ⟨admission_halted ha, hc⟩)
    · exact .inr (.inr ⟨admission_raise ha, c, hc⟩)
  · rw [hr]
    by_cases hf : s.FAULT = 0#3
    · exact .inr (.inr ⟨hf, _, refuse_of_running _ hf⟩)
    · exact .inr (.inl ⟨hf, refuse_of_halted _ hf⟩)

/-- The same as a check of all 256 bytes. -/
theorem all_encode_of_decode : ∀ b : Byte, ((decode b).toOption.all fun i => encode i = b) = true := by decide

/-- A byte that decodes is the byte of its command. -/
theorem encode_of_decode {b : Byte} {i : Instr} (h : decode b = .ok i) : encode i = b := by
  have hb := all_encode_of_decode b
  rw [h] at hb
  simpa [Except.toOption] using hb

end Sys2Proof.Machine
end

section
/-! PROOF. The invariant of the engine is kept by every step, and holds after reset. -/

namespace Sys2Proof.Machine

/-- A halted answer fits a fault that is recorded (60_exceptions.md R179). -/
theorem inv_refuseHalted {s : State} (h : s.Inv) (hf : s.FAULT ≠ 0#3) : s.refuseHalted.Inv := by
  obtain ⟨hle, hk, _⟩ := h
  refine ⟨hle, hk, fun r hr => ?_⟩
  obtain rfl : _ = r := by simpa using hr
  exact .inr ⟨.inr rfl, hf, rfl⟩

/-- A fault entry records the code it answers (60_exceptions.md R178). -/
theorem inv_raiseFault {s : State} (h : s.Inv) (c : Cause) : (s.raiseFault c).Inv := by
  obtain ⟨_, hk, _⟩ := h
  refine ⟨(causeCode_range c).2, hk, fun r hr => ?_⟩
  obtain rfl : _ = r := by simpa using hr
  exact .inr ⟨.inl rfl, causeCode_ne_zero c, rfl⟩

/-- The schedule KEYEXP writes is an expansion, and no other command writes one. -/
theorem writes_RK_expansion {s : State} (i : Instr) (h : s.RK_VALID = true → ∃ k, s.RK = keyExpansion k) :
    (s.writes i).RK_VALID = true → ∃ k, (s.writes i).RK = keyExpansion k := by
  rcases writes_RK_or_keyexp s i with ⟨hk, hv⟩ | rfl
  · rwa [hk, hv]
  · exact fun _ => ⟨s.operand, rfl⟩

theorem inv_accepted {s : State} (i : Instr) (h : s.Inv) (hf : s.FAULT = 0#3) : (s.accepted i).Inv := by
  obtain ⟨hle, hk, _⟩ := h
  refine ⟨by simpa using hle, writes_RK_expansion i hk, fun r hr => ?_⟩
  obtain rfl : _ = r := by simpa using hr
  exact .inl ⟨rfl, by simpa using hf⟩

theorem inv_takeReset (s : State) : s.takeReset.Inv :=
  ⟨by simp, by simp, by simp⟩

theorem inv_runCommand {s t : State} (h : s.Inv) (ht : runCommand s = .next t) : t.Inv := by
  rcases runCommand_answers s with ⟨i, _, hf, hr⟩ | ⟨hf, hr⟩ | ⟨_, c, hr⟩ <;>
    obtain rfl : _ = t := by simpa [hr] using ht
  · exact inv_accepted i h hf
  · exact inv_refuseHalted h hf
  · exact inv_raiseFault h c

/-- Settles O56, by the cases of a step: the invariant speaks of no port and no move of the host, so taking a move keeps it,
and each answer of a command and a reset keep it. -/
theorem stepKeepsTheInvariant : Obligations.StepKeepsTheInvariant := by
  intro s t h ht
  rcases step_next ht with ⟨_, rfl⟩ | ⟨c, d, rest, _, hr⟩ | ⟨rest, _, rfl⟩ | ⟨p, rest, _, rfl⟩
  · exact h
  · have hp : ((s.setHost rest).present c d).Inv := h
    exact inv_runCommand hp hr
  · exact h
  · exact inv_takeReset _

/-- Settles O57: no fault, no valid schedule and no response. -/
theorem resetMeetsTheInvariant : Obligations.ResetMeetsTheInvariant :=
  ⟨by simp [State.reset], by simp [State.reset], by simp [State.reset]⟩

end Sys2Proof.Machine
end

section
/-! PROOF. Agreement on all that is specified is kept by every step (10_state.md R35). -/

namespace Sys2Proof.Machine

/-! ## Updates keep agreement -/

section
variable {s s' : State}

theorem State.Agrees.setHost (h : s.Agrees s') (rest : List HostMove) : (s.setHost rest).Agrees (s'.setHost rest) := by
  obtain ⟨hsv, hs, hkv, hk, hf, hc, hd, hr, _⟩ := h
  exact ⟨hsv, hs, hkv, hk, hf, hc, hd, hr, rfl⟩

theorem State.Agrees.present (h : s.Agrees s') (b : Byte) (d : Bus) : (s.present b d).Agrees (s'.present b d) := by
  obtain ⟨hsv, hs, hkv, hk, hf, _, _, hr, hh⟩ := h
  exact ⟨hsv, hs, hkv, hk, hf, rfl, rfl, hr, hh⟩

theorem State.Agrees.presentWithReset (h : s.Agrees s') (p : Option (Byte × Bus)) :
    (s.presentWithReset p).Agrees (s'.presentWithReset p) := by
  cases p with
  | none => exact h
  | some c => exact h.present c.1 c.2

theorem State.Agrees.respond (h : s.Agrees s') (e : BitVec 3) (d : Bus) : (s.respond e d).Agrees (s'.respond e d) := by
  obtain ⟨hsv, hs, hkv, hk, hf, hc, hd, _, hh⟩ := h
  exact ⟨hsv, hs, hkv, hk, hf, hc, hd, rfl, hh⟩

theorem State.Agrees.setFAULT (h : s.Agrees s') (c : BitVec 3) : (s.setFAULT c).Agrees (s'.setFAULT c) := by
  obtain ⟨hsv, hs, hkv, hk, _, hc, hd, hr, hh⟩ := h
  exact ⟨hsv, hs, hkv, hk, rfl, hc, hd, hr, hh⟩

theorem State.Agrees.raiseFault (h : s.Agrees s') (c : Cause) : (s.raiseFault c).Agrees (s'.raiseFault c) :=
  (h.setFAULT c.code).respond c.code zeroBus

/-- The unspecified bytes a reset leaves stand under valid bits that are 0. -/
theorem State.Agrees.takeReset (h : s.Agrees s') : s.takeReset.Agrees s'.takeReset := by
  obtain ⟨_, _, _, _, _, hc, hd, _, hh⟩ := h
  exact ⟨rfl, by simp, rfl, by simp, rfl, hc, hd, rfl, hh⟩

theorem State.Agrees.setSTATE (h : s.Agrees s') {B B' : Block} (hB : B = B') : (s.setSTATE B).Agrees (s'.setSTATE B') := by
  obtain ⟨hsv, _, hkv, hk, hf, hc, hd, hr, hh⟩ := h
  exact ⟨hsv, fun _ => hB, hkv, hk, hf, hc, hd, hr, hh⟩

theorem State.Agrees.setST_VALID (h : s.Agrees s') (hs : s.STATE = s'.STATE) (v : Bool) :
    (s.setST_VALID v).Agrees (s'.setST_VALID v) := by
  obtain ⟨_, _, hkv, hk, hf, hc, hd, hr, hh⟩ := h
  exact ⟨rfl, fun _ => hs, hkv, hk, hf, hc, hd, hr, hh⟩

/-- A schedule written with its valid bit is specified whatever stood there. -/
theorem State.Agrees.setRK_setRK_VALID (h : s.Agrees s') {K K' : Schedule} (hK : K = K') (v : Bool) :
    ((s.setRK K).setRK_VALID v).Agrees ((s'.setRK K').setRK_VALID v) := by
  obtain ⟨hsv, hs, _, _, hf, hc, hd, hr, hh⟩ := h
  exact ⟨hsv, hs, rfl, fun _ => hK, hf, hc, hd, hr, hh⟩

/-- The unspecified bytes of a lost block stand under a valid bit that is 0. -/
theorem State.Agrees.loseSTATE_setST_VALID (h : s.Agrees s') :
    (s.loseSTATE.setST_VALID false).Agrees (s'.loseSTATE.setST_VALID false) := by
  obtain ⟨_, _, hkv, hk, hf, hc, hd, hr, hh⟩ := h
  exact ⟨rfl, by simp, hkv, hk, hf, hc, hd, hr, hh⟩

/-! ## What agreeing states read alike -/

theorem State.Agrees.operand_eq (h : s.Agrees s') : s.operand = s'.operand := by
  obtain ⟨_, _, _, _, _, _, hd, _, _⟩ := h
  rw [State.operand, hd, State.operand]

theorem roundKeyAt_congr (h : s.RK = s'.RK) (idx : BitVec 4) : s.roundKeyAt idx = s'.roundKeyAt idx := by
  rw [State.roundKeyAt, h, State.roundKeyAt]

/-- Admission reads `FAULT` and the valid bits only, which are always specified. -/
theorem State.Agrees.admission_eq (h : s.Agrees s') (n : Needs) : admission n s = admission n s' := by
  obtain ⟨hsv, _, hkv, _, hf, _, _, _, _⟩ := h
  rw [admission, admission, State.halted, State.halted, hsv, hkv, hf]

/-! ## Commands keep agreement -/

/-- A command whose effect keeps agreement when it is accepted keeps agreement: both states take the same decision. -/
theorem State.Agrees.command_next (h : s.Agrees s') (n : Needs) (e : State → State)
    (he : admission n s = .accepted → (e s).Agrees (e s')) :
    ∃ t t', command n e s = .next t ∧ command n e s' = .next t' ∧ t.Agrees t' := by
  have ha' := (h.admission_eq n).symm
  rcases command_cases n e s with ⟨ha, hc⟩ | ⟨ha, hc⟩ | ⟨c, ha, hc⟩ <;> rw [ha] at ha'
  · exact ⟨_, _, hc, command_of_admission_accepted e ha', he ha⟩
  · exact ⟨_, _, hc, command_of_halted n e (admission_halted ha'), h.respond haltedCode zeroBus⟩
  · exact ⟨_, _, hc, command_of_admission_raise e ha', h.raiseFault c⟩

/-- The registers a command writes are specified when those it reads are. -/
theorem State.Agrees.writes (h : s.Agrees s') (i : Instr) (hk : readsRK i = true → s.RK = s'.RK)
    (hs : readsSTATE i = true → s.STATE = s'.STATE) : (s.writes i).Agrees (s'.writes i) := by
  cases i with
  | gfmul | rdst | rdrk => exact h
  | keyexp => exact h.setRK_setRK_VALID (congrArg _ h.operand_eq) true
  | ldst => exact (h.setSTATE h.operand_eq).setST_VALID h.operand_eq true
  | subbytesF | subbytesI | shiftrowsF | shiftrowsI | mixcolsF | mixcolsI =>
    exact h.setSTATE (congrArg _ (hs rfl))
  | addrk idx => exact h.setSTATE (congrArg₂ _ (hs rfl) (roundKeyAt_congr (hk rfl) idx))
  | encrypt | decrypt => exact h.loseSTATE_setST_VALID

/-- The data result of a command is made of the operand and of the registers it reads. -/
theorem State.Agrees.result_eq (h : s.Agrees s') (i : Instr) (hk : readsRK i = true → s.RK = s'.RK)
    (hs : readsSTATE i = true → s.STATE = s'.STATE) : s.result i = s'.result i := by
  have ho := h.operand_eq
  cases i with
  | gfmul => simp only [State.result, ho]
  | rdst => simp only [State.result, hs rfl]
  | rdrk idx => simp only [State.result, roundKeyAt_congr (hk rfl) idx]
  | encrypt | decrypt => simp only [State.result, ho, hk rfl]
  | _ => rfl

/-- An accepted command reads `RK` and `STATE` only under a valid bit that is 1. -/
theorem State.Agrees.accepted (h : s.Agrees s') (i : Instr) (ha : admission (Instr.needs i) s = .accepted) :
    (s.accepted i).Agrees (s'.accepted i) := by
  obtain ⟨_, hkv, hsv⟩ := admission_accepted ha
  have ⟨_, hst, _, hrk, _⟩ := h
  have hk : readsRK i = true → s.RK = s'.RK := fun hi => hrk (hkv hi)
  have hs : readsSTATE i = true → s.STATE = s'.STATE := fun hi => hst (hsv hi)
  rw [State.accepted, State.accepted, h.result_eq i hk hs]
  exact (h.writes i hk hs).respond okCode _

theorem State.Agrees.runCommand_next (h : s.Agrees s') :
    ∃ t t', runCommand s = .next t ∧ runCommand s' = .next t' ∧ t.Agrees t' := by
  have ⟨_, _, _, _, _, hc, _⟩ := h
  unfold runCommand
  rw [← hc]
  cases decode s.cmd with
  | ok i =>
    simp only [exec_eq_command]
    exact h.command_next _ _ (h.accepted i)
  | error _ => exact h.command_next _ _ fun _ => h

end

/-- Settles O58, by the host's next move, which is the same in both states. -/
theorem unspecifiedBytesAreNeverObserved : Obligations.UnspecifiedBytesAreNeverObserved := by
  intro s s' h
  have ⟨_, _, _, _, _, _, _, _, hh⟩ := h
  cases hm : s.host with
  | nil => exact ⟨_, _, step_of_idle hm, step_of_idle (hh ▸ hm), h⟩
  | cons move rest =>
    have hm' : s'.host = move :: rest := hh ▸ hm
    cases move with
    | issue b d =>
      rw [step_of_issue hm, step_of_issue hm']
      exact ((h.setHost rest).present b d).runCommand_next
    | sampleStatus => exact ⟨_, _, step_of_sample hm, step_of_sample hm', h.setHost rest⟩
    | reset p =>
      exact ⟨_, _, step_of_reset hm, step_of_reset hm',
        ((h.setHost rest).presentWithReset p).takeReset⟩

end Sys2Proof.Machine
end

section
/-! PROOF. The response of a command, the frames of the commands and of the step, the reset state and the status output. -/

namespace Sys2Proof.Machine

/-- Settles O11: the answer of an issued byte is that of an accepted command, of a halted engine or of a fault entry. -/
theorem everyCommandGivesAResponse : Obligations.EveryCommandGivesAResponse := by
  intro s b d rest hs
  rw [step_of_issue hs]
  rcases runCommand_answers ((s.setHost rest).present b d) with ⟨i, _, _, hr⟩ | ⟨_, hr⟩ | ⟨_, c, hr⟩
  · exact ⟨_, _, hr, rfl, by simp [okCode], by simp [okCode]⟩
  · exact ⟨_, _, hr, rfl, by simp [haltedCode], fun _ => rfl⟩
  · exact ⟨_, _, hr, rfl, (causeCode_range c).2.trans (by decide), fun _ => rfl⟩

/-! ## Frames -/

/-- Settles O31: an accepted reading command writes no register, and a refused one writes at most `FAULT`. -/
theorem frameOfReadingCommands : Obligations.FrameOfReadingCommands := by
  intro i s t hi h
  have hw : s.writes i = s := by rcases hi with rfl | rfl | ⟨idx, rfl⟩ <;> rfl
  rcases exec_next h with ⟨_, rfl⟩ | ⟨_, _, rfl⟩ | ⟨hr, hf, c, rfl⟩
  · simp [hw]
  · simp
  · simp [hr, hf]

/-- Settles O32: the writes of these commands leave the schedule, and `ST_VALID` but for LDST; a refused one writes at most
`FAULT`. -/
theorem frameOfStateCommands : Obligations.FrameOfStateCommands := by
  intro i s t hi h
  rcases exec_next h with ⟨hr, rfl⟩ | ⟨hr, _, rfl⟩ | ⟨hr, hf, c, rfl⟩
  · rcases hi with rfl | rfl | rfl | rfl | rfl | rfl | rfl | ⟨idx, rfl⟩ <;> simp [hr, State.writes]
  · simp
  · simp [hr, hf]

/-- Settles O33: KEYEXP writes the schedule only, ENCRYPT and DECRYPT the block only; a refused one writes at most `FAULT`. -/
theorem frameOfKeyAndCipherCommands : Obligations.FrameOfKeyAndCipherCommands := by
  intro i s t hi h
  rcases exec_next h with ⟨hr, rfl⟩ | ⟨hr, _, rfl⟩ | ⟨hr, hf, c, rfl⟩
  · rcases hi with rfl | rfl | rfl <;> simp [hr, State.writes]
  · simp
  · simp [hr, hf]

/-- A step leaves the block, the schedule and their valid bits as they were, or the host issued a command and they are as it
writes them, or the host asserted reset. -/
theorem step_keeps_or_writes {s t : State} (h : step s = .next t) :
    (t.STATE = s.STATE ∧ t.ST_VALID = s.ST_VALID ∧ t.RK = s.RK ∧ t.RK_VALID = s.RK_VALID) ∨
    (∃ i d rest, s.host = .issue (encode i) d :: rest ∧ t = State.accepted i ((s.setHost rest).present (encode i) d)) ∨
    ∃ p rest, s.host = .reset p :: rest := by
  rcases step_next h with ⟨_, rfl⟩ | ⟨b, d, rest, hs, hr⟩ | ⟨rest, _, rfl⟩ | ⟨p, rest, hs, _⟩
  · exact .inl ⟨rfl, rfl, rfl, rfl⟩
  · rcases runCommand_answers ((s.setHost rest).present b d) with ⟨i, hd, _, ha⟩ | ⟨_, ha⟩ | ⟨_, c, ha⟩ <;>
      obtain rfl : _ = t := by simpa [ha] using hr
    · obtain rfl : encode i = b := encode_of_decode hd
      exact .inr (.inl ⟨i, d, rest, hs, rfl⟩)
    · exact .inl ⟨rfl, rfl, rfl, rfl⟩
    · exact .inl ⟨rfl, rfl, rfl, rfl⟩
  · exact .inl ⟨rfl, rfl, rfl, rfl⟩
  · exact .inr (.inr ⟨p, rest, hs⟩)

/-- Settles O34: a register that a step changes is one that the issued command writes, unless the move is a reset. -/
theorem onlyListedMovesWrite : Obligations.OnlyListedMovesWrite := by
  intro s t h
  rcases step_keeps_or_writes h with ⟨hs, hsv, hk, hkv⟩ | ⟨i, d, rest, hm, rfl⟩ | hreset
  · simp [hs, hsv, hk, hkv]
  · have hi : ∃ d rest, s.host = .issue (encode i) d :: rest := ⟨d, rest, hm⟩
    refine ⟨fun hne => ?_, fun hne => ?_, fun hne => ?_⟩
    · rcases writes_RK_or_keyexp ((s.setHost rest).present (encode i) d) i with ⟨hk, hkv⟩ | rfl
      · simp [hk, hkv] at hne
      · exact .inl hi
    · rcases writes_ST_VALID_or ((s.setHost rest).present (encode i) d) i with hsv | rfl | rfl | rfl
      · simp [hsv] at hne
      all_goals simp only [hi, true_or, or_true]
    · rcases writes_STATE_or ((s.setHost rest).present (encode i) d) i with
        hs | ⟨idx, rfl⟩ | rfl | rfl | rfl | rfl | rfl | rfl | rfl | rfl | rfl
      · simp [hs] at hne
      · have haddrk : ∃ idx d rest, s.host = .issue (encode (.addrk idx)) d :: rest := ⟨idx, hi⟩
        simp only [haddrk, true_or, or_true]
      all_goals simp only [hi, true_or, or_true]
  · exact ⟨fun _ => .inr hreset, fun _ => .inr (.inr (.inr hreset)), fun _ => by simp only [hreset, or_true]⟩

/-! ## The step, the reset state, the status output -/

/-- Settles O6: the step takes the move, puts it on the ports and decodes it. -/
theorem stepRunsTheDecodedCommand : Obligations.StepRunsTheDecodedCommand := by
  intro s b d rest i hs hd
  rw [step_of_issue hs]
  exact runCommand_of_decode hd

/-- Settles O12: the reset state gives these values. -/
theorem resetStateOfR34 : Obligations.ResetStateOfR34 := ⟨rfl, rfl, rfl, rfl⟩

/-- A bit of the status, by its place in the three fields. -/
theorem getLsbD_status (s : State) (k : Nat) :
    s.status.getLsbD k = if k < 1 then (BitVec.ofBool s.RK_VALID).getLsbD k
      else if k - 1 < 1 then (BitVec.ofBool s.ST_VALID).getLsbD (k - 1) else s.FAULT.getLsbD (k - 1 - 1) := by
  rw [State.status, BitVec.getLsbD_append, BitVec.getLsbD_append]

/-- Settles O13, bit by bit: bit `2 + k` is past the two valid bits. -/
theorem statusBits : Obligations.StatusBits := by
  intro s
  refine ⟨BitVec.eq_of_getLsbD_eq fun k hk => ?_, ?_, ?_⟩
  · have hk' : 2 + k - 1 - 1 = k := by omega
    simp only [BitVec.getLsbD_extractLsb', getLsbD_status, hk, decide_true, Bool.true_and]
    rw [if_neg (by omega), if_neg (by omega), hk']
  · rw [getLsbD_status]
    simp
  · rw [getLsbD_status]
    simp

end Sys2Proof.Machine
end

section
/-! PROOF. The lanes of a bus (20_memory.md R52), and that a command does the same whatever is on the bytes of `din` it does
not use (20_memory.md R57, 30_encoding.md R74). -/

namespace Sys2Proof.Machine

/-! ## Lanes of a bus -/

/-- Byte `i` of a block is the lane `i` of its bus value. `Nat.reduceAdd` stays off: it rewrites the width of the
concatenation, and the two lemmas no longer apply. -/
@[simp] theorem lane_busOfBlock (B : Block) (i : Nat) (h : i < 16) :
    (busOfBlock B).extractLsb' (120 - 8 * i) 8 = B[i] := by
  unfold busOfBlock
  interval_cases i <;>
    simp [-Nat.reduceAdd, BitVec.extractLsb'_append_eq_of_le, BitVec.extractLsb'_append_eq_of_add_le]

/-- Two buses with the same sixteen lanes are equal: bit `k` is bit `k % 8` of lane `15 - k / 8`. -/
theorem bus_ext_lanes {c d : Bus}
    (h : ∀ i < 16, c.extractLsb' (120 - 8 * i) 8 = d.extractLsb' (120 - 8 * i) 8) : c = d :=
  BitVec.eq_of_getLsbD_eq fun k hk => by
    have hlane : 120 - 8 * (15 - k / 8) + k % 8 = k := by omega
    have hbit := congrArg (·.getLsbD (k % 8)) (h (15 - k / 8) (by omega))
    simpa [hlane, Nat.mod_lt] using hbit

@[simp] theorem busOfBlock_blockOfBus (d : Bus) : busOfBlock (blockOfBus d) = d :=
  bus_ext_lanes fun i hi => by rw [lane_busOfBlock _ i hi, getElem_blockOfBus]

@[simp] theorem blockOfBus_busOfBlock (B : Block) : blockOfBus (busOfBlock B) = B :=
  Vector.ext fun i hi => by rw [getElem_blockOfBus, lane_busOfBlock]

/-- Settles O14: the lanes in both directions, and the two round trips from them. -/
theorem busLanes : Obligations.BusLanes :=
  ⟨getElem_blockOfBus, lane_busOfBlock, busOfBlock_blockOfBus, blockOfBus_busOfBlock⟩

/-! ## The data operand of a command that does not use all of it -/

/-- A field of a field is a field of the whole. -/
theorem extractLsb'_extractLsb'_of_add_le {w m : Nat} (x : BitVec w) (a : Nat) {b n : Nat} (h : b + n ≤ m) :
    (x.extractLsb' a m).extractLsb' b n = x.extractLsb' (a + b) n :=
  BitVec.eq_of_getLsbD_eq fun k hk => by
    have hbk : b + k < m := by omega
    simp [hbk, Nat.add_assoc]

/-- Lanes 0 and 1 are the two bytes of the upper sixteen bits. -/
theorem getElem_blockOfBus_upper (d : Bus) :
    (blockOfBus d)[0] = (d.extractLsb' 112 16).extractLsb' 8 8 ∧
    (blockOfBus d)[1] = (d.extractLsb' 112 16).extractLsb' 0 8 := by
  simp [extractLsb'_extractLsb'_of_add_le]

/-- A command whose effect leaves `din` aside does the same on every bus: admission does not read it. -/
theorem command_of_din_ignored {n : Needs} {e : State → State} {s t : State} {d : Bus}
    (he : e { s with din := d } = { e s with din := d }) (h : command n e s = .next t) :
    command n e { s with din := d } = .next { t with din := d } := by
  have ha : admission n { s with din := d } = admission n s := rfl
  rcases command_next h with ⟨hs, rfl⟩ | ⟨hs, rfl⟩ | ⟨c, hs, rfl⟩ <;> rw [command, ha, hs]
  · rw [he]
  · rfl
  · rfl

/-- A command that reads the block, or RDRK, has no data operand. -/
theorem accepted_of_no_operand {i : Instr} (h : readsSTATE i = true ∨ ∃ idx, i = .rdrk idx) (s : State) (d : Bus) :
    State.accepted i { s with din := d } = { State.accepted i s with din := d } := by
  cases i with
  | gfmul | keyexp | ldst | encrypt | decrypt => simp [readsSTATE] at h
  | _ => rfl

/-- GFMUL multiplies `D[0]` and `D[1]` (40_galois_field.md R99). -/
theorem accepted_gfmul_of_upper {s : State} {d : Bus} (h : d.extractLsb' 112 16 = s.din.extractLsb' 112 16) :
    State.accepted .gfmul { s with din := d } = { State.accepted .gfmul s with din := d } := by
  have hr : State.result { s with din := d } .gfmul = s.result .gfmul := by
    simp only [State.result, State.operand, getElem_blockOfBus_upper, h]
  rw [State.accepted, hr]
  rfl

/-- Settles O35: the accepted command is the same on both buses, so the command is. -/
theorem unusedOperandBytesAreIgnored : Obligations.UnusedOperandBytesAreIgnored := by
  intro i s t d ht hi
  have he : State.accepted i { s with din := d } = { State.accepted i s with din := d } := by
    rcases hi with hi | hi | ⟨rfl, hd⟩
    · exact accepted_of_no_operand (.inl hi) s d
    · exact accepted_of_no_operand (.inr hi) s d
    · exact accepted_gfmul_of_upper hd
  rw [exec_eq_command] at ht ⊢
  exact command_of_din_ignored he ht

end Sys2Proof.Machine
end

section
/-! PROOF. The decoder and the encoder (30_encoding.md R70 to R77): a byte as its two fields, the round trips, the rows of the
opcode map, the reserved bytes. -/

namespace Sys2Proof.Machine

/-! ## The two fields of a byte (R70) -/

@[simp] theorem opField_append (op arg : BitVec 4) : opField (op ++ arg) = op :=
  BitVec.extractLsb'_append_eq_left

@[simp] theorem argField_append (op arg : BitVec 4) : argField (op ++ arg) = arg :=
  BitVec.extractLsb'_append_eq_right

theorem opField_append_argField (b : Byte) : opField b ++ argField b = b :=
  BitVec.extractLsb'_append_extractLsb'

theorem opField_and (b c : Byte) : opField (b &&& c) = opField b &&& opField c :=
  BitVec.extractLsb'_and

theorem toNat_append_fields (op arg : BitVec 4) : (op ++ arg : Byte).toNat = 16 * op.toNat + arg.toNat := by
  rw [BitVec.toNat_append, ← Nat.shiftLeft_add_eq_or_of_lt arg.isLt, Nat.shiftLeft_eq, Nat.mul_comm]

/-! ## Decoding and encoding -/

/-- The byte of a command decodes to it: of the operands only an index reaches the byte, and it is the whole argument. -/
theorem decode_encode (i : Instr) : decode (encode i) = .ok i := by
  cases i with
  | rdrk idx | addrk idx => simp [encode, decode]
  | _ => rfl

theorem decode_eq_ok_iff {b : Byte} {i : Instr} : decode b = .ok i ↔ encode i = b :=
  ⟨encode_of_decode, fun h => h ▸ decode_encode i⟩

/-- Settles O1: the byte of a command keeps its operand whole, and a byte that decodes is the byte of its command. -/
theorem decodeAndEncodeAgree : Obligations.DecodeAndEncodeAgree :=
  ⟨decode_encode, fun _ _ => encode_of_decode⟩

/-- Settles O2: each listed byte is the byte of the command written beside it, and the two others are rejected. -/
theorem decodeOfListedBytes : Obligations.DecodeOfListedBytes :=
  ⟨decode_encode .gfmul, decode_encode .keyexp, decode_encode .ldst, decode_encode .rdst, decode_encode (.rdrk 10#4),
    decode_encode .subbytesF, decode_encode .subbytesI, decode_encode .shiftrowsF, decode_encode .shiftrowsI,
    decode_encode .mixcolsF, decode_encode .mixcolsI, decode_encode (.addrk 0#4), decode_encode .encrypt,
    decode_encode .decrypt, rfl, rfl⟩

/-! ## The rows of the opcode map (R75) -/

theorem encode_and_rowMask (i : Instr) : encode i &&& rowMask i = rowMatch i := by
  cases i with
  | rdrk idx => exact Laws.OpcodeRow.rdrk idx
  | addrk idx => exact Laws.OpcodeRow.addrk idx
  | _ => rfl

/-- A row is one byte under the full mask, or one of the two rows with an index. -/
theorem row_full_or_indexed (i : Instr) :
    (rowMask i = BitVec.allOnes 8 ∧ rowMatch i = encode i) ∨ (∃ idx, i = .rdrk idx) ∨ ∃ idx, i = .addrk idx := by
  cases i with
  | rdrk idx => exact .inr (.inl ⟨idx, rfl⟩)
  | addrk idx => exact .inr (.inr ⟨idx, rfl⟩)
  | _ => exact .inl ⟨rfl, rfl⟩

/-- A byte whose upper half is `op` is `op` followed by its argument. -/
theorem eq_append_of_and_F0 {b : Byte} {op : BitVec 4} (h : b &&& 0xF0#8 = op ++ 0#4) : op ++ argField b = b := by
  have hop : opField b &&& BitVec.allOnes 4 = op := by
    rw [← opField_append op 0#4, ← h, opField_and]
    rfl
  rw [← hop, BitVec.and_allOnes, opField_append_argField]

/-- A byte with the match of a row under its mask is the byte of a command of that row. -/
theorem exists_encode_of_row {b : Byte} {i : Instr} (h : b &&& rowMask i = rowMatch i) :
    ∃ j, encode j = b ∧ rowMatch j = rowMatch i ∧ rowMask j = rowMask i := by
  rcases row_full_or_indexed i with ⟨hmask, hmatch⟩ | ⟨idx, rfl⟩ | ⟨idx, rfl⟩
  · rw [hmask, hmatch, BitVec.and_allOnes] at h
    exact ⟨i, h.symm, rfl, rfl⟩
  · exact ⟨.rdrk (argField b), eq_append_of_and_F0 h, rfl, rfl⟩
  · exact ⟨.addrk (argField b), eq_append_of_and_F0 h, rfl, rfl⟩

/-- Settles O3: the byte of a command lies in its row, and a byte in a row is the byte of a command there. -/
theorem decodeSelectsRowByMask : Obligations.DecodeSelectsRowByMask := by
  refine fun b => ⟨fun i hd => ?_, fun i hrow => ?_⟩
  · rw [← encode_of_decode hd]
    exact encode_and_rowMask i
  · obtain ⟨j, hj, hmatch, hmask⟩ := exists_encode_of_row hrow
    exact ⟨j, decode_eq_ok_iff.mpr hj, hmatch, hmask⟩

/-- A count below `16 * n`, taken row by row of the opcode map: sixteen arguments to an opcode. -/
theorem countP_range_by_rows (p : Nat → Bool) (n : Nat) :
    (List.range (16 * n)).countP p =
      ((List.range n).map fun op => (List.range 16).countP fun arg => p (16 * op + arg)).sum := by
  induction n with
  | zero => rfl
  | succ n ih =>
    rw [Nat.mul_succ, List.range_add, List.countP_append, List.countP_map, ih, List.range_succ (n := n),
      List.map_append, List.sum_append]
    simp [Function.comp_def]

/-- Settles O4: the counts of the sixteen rows, added up. -/
theorem decodeCountsOfR76 : Obligations.DecodeCountsOfR76 := by
  have hrows (p : Byte → Bool) := countP_range_by_rows (p ∘ BitVec.ofNat 8) 16
  simp only [Obligations.DecodeCountsOfR76, List.countP_map]
  refine ⟨(hrows _).trans ?_, (hrows _).trans ?_, (hrows _).trans ?_⟩ <;> decide

/-! ## The reserved bytes (R77) -/

theorem formatN_eq_error_iff (arg : BitVec 4) (i : Instr) : (∃ e, formatN arg i = .error e) ↔ arg.toNat ≠ 0 := by
  by_cases h : arg = 0#4
  · simp [formatN, h]
  · have hv : arg.toNat ≠ 0 := by simpa [BitVec.toNat_eq] using h
    simp [formatN, h, hv]

theorem formatD_eq_error_iff (arg : BitVec 4) (i : Direction → Instr) :
    (∃ e, formatD arg i = .error e) ↔ 2 ≤ arg.toNat := by
  have hv : arg.extractLsb' 1 3 = 0#3 ↔ arg.toNat < 2 := by revert arg; decide
  by_cases h : arg.extractLsb' 1 3 = 0#3
  · simp [formatD, h, hv.mp h]
  · simp [formatD, h, Nat.le_of_not_lt (mt hv.mpr h)]

/-- The reserved bytes of R77 by their two fields: an opcode of no row, an argument in format N, an argument above the
direction bit in format D. -/
def ReservedFields (op arg : Nat) : Prop :=
  op = 0 ∨ 11 ≤ op ∨ (1 ≤ op ∧ op ≤ 4 ∧ arg ≠ 0) ∨ ((op = 6 ∨ op = 7 ∨ op = 8 ∨ op = 10) ∧ 2 ≤ arg)

/-- The ranges R77 lists are those fields. -/
theorem reservedByte_iff_fields (b : Byte) :
    reservedByte b = true ↔ ReservedFields (opField b).toNat (argField b).toNat := by
  have hb : b.toNat = 16 * (opField b).toNat + (argField b).toNat := by
    rw [← toNat_append_fields, opField_append_argField]
  have hop := (opField b).isLt
  have harg := (argField b).isLt
  simp only [reservedByte, ReservedFields, Bool.or_eq_true, Bool.and_eq_true, decide_eq_true_eq]
  omega

/-- The decoder rejects by those fields: the opcode chooses the format, and the format looks at the argument. -/
theorem decode_eq_error_iff_fields (b : Byte) :
    (∃ e, decode b = .error e) ↔ ReservedFields (opField b).toNat (argField b).toNat := by
  simp only [decode, ReservedFields]
  split
  case h_11 =>
    simp only [imp_false] at *
    have hop : (opField b).toNat = 0 ∨ 11 ≤ (opField b).toNat := by omega
    simp [hop, ← or_assoc]
  all_goals simp [formatN_eq_error_iff, formatD_eq_error_iff, *]

theorem decode_eq_error_iff (b : Byte) : (∃ e, decode b = .error e) ↔ reservedByte b = true :=
  (decode_eq_error_iff_fields b).trans (reservedByte_iff_fields b).symm

theorem runCommand_of_reserved {s : State} (h : reservedByte s.cmd = true) : runCommand s = refuse .rsvd s := by
  obtain ⟨e, he⟩ := (decode_eq_error_iff s.cmd).mpr h
  rw [runCommand, he]

/-- Settles O5: both lists of reserved bytes are the same fields, and the refusal of a reserved byte is a fault entry with
the code of `E_RSVD`. -/
theorem reservedBytesAreRefused : Obligations.ReservedBytesAreRefused := by
  refine ⟨decode_eq_error_iff, fun s b d rest hs hb hf => ?_⟩
  calc step s = runCommand ((s.setHost rest).present b d) := step_of_issue hs
    _ = refuse .rsvd ((s.setHost rest).present b d) := runCommand_of_reserved hb
    _ = .next (((s.setHost rest).present b d).raiseFault .rsvd) := refuse_of_running .rsvd hf

end Sys2Proof.Machine
end

section
/-! PROOF. The field GF(2^8) of `Multiply` (40_galois_field.md R90 to R95). `Multiply` is linear in each operand and commutes
with doubling, and every byte is made from 1 by doubling and addition, so a law that both operations keep need only be shown
at 1. -/

namespace Sys2Proof.Machine

/-! ## Addition of conditional terms -/

theorem xor_xor_xor_comm {w : Nat} (a b c d : BitVec w) : (a ^^^ b) ^^^ (c ^^^ d) = (a ^^^ c) ^^^ (b ^^^ d) := by
  ac_rfl

theorem ite_xor_ite_term (p : Bool) (a b : Byte) :
    (if p then a ^^^ b else 0#8) = (if p then a else 0#8) ^^^ (if p then b else 0#8) := by
  cases p <;> simp

theorem ite_xor_ite_cond (p q : Bool) (a : Byte) :
    (if p ^^ q then a else 0#8) = (if p then a else 0#8) ^^^ (if q then a else 0#8) := by
  cases p <;> cases q <;> simp

/-! ## Doubling (R95) -/

/-- `xt(a)` of R95: what an iteration of `Multiply` does to its operand `a`. -/
def doubled (a : Byte) : Byte := (a <<< 1) ^^^ (if a.getLsbD 7 then 0x1B#8 else 0x00#8)

@[simp] theorem doubled_zero : doubled 0#8 = 0#8 := rfl

theorem doubled_xor (a b : Byte) : doubled (a ^^^ b) = doubled a ^^^ doubled b := by
  rw [doubled, BitVec.shiftLeft_xor_distrib, BitVec.getLsbD_xor, ite_xor_ite_cond, xor_xor_xor_comm, doubled, doubled]

/-! ## The loop -/

@[simp] theorem multiplyLoop_zero (acc a b : Byte) : multiplyLoop 0 acc a b = acc := rfl

theorem multiplyLoop_succ (n : Nat) (acc a b : Byte) :
    multiplyLoop (n + 1) acc a b =
      multiplyLoop n (acc ^^^ if b.getLsbD 0 then a else 0#8) (doubled a) (b >>> 1) := by
  rw [multiplyLoop, doubled]
  cases b.getLsbD 0 <;> cases a.getLsbD 7 <;> simp

/-- The loop is linear in the accumulator and the first operand. -/
theorem multiplyLoop_xor_left (n : Nat) (acc acc' a a' b : Byte) :
    multiplyLoop n (acc ^^^ acc') (a ^^^ a') b = multiplyLoop n acc a b ^^^ multiplyLoop n acc' a' b := by
  induction n generalizing acc acc' a a' b with
  | zero => rfl
  | succ n ih =>
    rw [multiplyLoop_succ, doubled_xor, ite_xor_ite_term, xor_xor_xor_comm, ih, multiplyLoop_succ, multiplyLoop_succ]

/-- The loop is linear in the accumulator and the second operand. -/
theorem multiplyLoop_xor_right (n : Nat) (acc acc' a b b' : Byte) :
    multiplyLoop n (acc ^^^ acc') a (b ^^^ b') = multiplyLoop n acc a b ^^^ multiplyLoop n acc' a b' := by
  induction n generalizing acc acc' a b b' with
  | zero => rfl
  | succ n ih =>
    rw [multiplyLoop_succ, BitVec.getLsbD_xor, BitVec.ushiftRight_xor_distrib, ite_xor_ite_cond, xor_xor_xor_comm, ih,
      multiplyLoop_succ, multiplyLoop_succ]

theorem doubled_multiplyLoop (n : Nat) (acc a b : Byte) :
    doubled (multiplyLoop n acc a b) = multiplyLoop n (doubled acc) (doubled a) b := by
  induction n generalizing acc a b with
  | zero => rfl
  | succ n ih => simp only [multiplyLoop_succ, ih, doubled_xor, apply_ite doubled, doubled_zero]

/-- What holds of the accumulator and the first operand, and is kept by addition and doubling, holds of the result. -/
theorem multiplyLoop_keeps {P : Byte → Prop} (hzero : P 0#8) (hxor : ∀ a b, P a → P b → P (a ^^^ b))
    (hdoubled : ∀ a, P a → P (doubled a)) {n : Nat} {acc a : Byte} (b : Byte) (hacc : P acc) (ha : P a) :
    P (multiplyLoop n acc a b) := by
  induction n generalizing acc a b with
  | zero => exact hacc
  | succ n ih =>
    rw [multiplyLoop_succ]
    refine ih _ (hxor _ _ hacc ?_) (hdoubled a ha)
    split
    · exact ha
    · exact hzero

/-! ## `Multiply` -/

theorem multiply_xor_left (a b c : Byte) : multiply (a ^^^ b) c = multiply a c ^^^ multiply b c :=
  multiplyLoop_xor_left 8 0#8 0#8 a b c

theorem multiply_xor_right (a b c : Byte) : multiply a (b ^^^ c) = multiply a b ^^^ multiply a c :=
  multiplyLoop_xor_right 8 0#8 0#8 a b c

theorem multiply_doubled_left (a b : Byte) : multiply (doubled a) b = doubled (multiply a b) :=
  (doubled_multiplyLoop 8 0#8 a b).symm

@[simp] theorem multiply_zero (a : Byte) : multiply a 0#8 = 0#8 := by
  simpa using multiply_xor_right a 0#8 0#8

@[simp] theorem zero_multiply (a : Byte) : multiply 0#8 a = 0#8 := by
  simpa using multiply_xor_left 0#8 0#8 a

/-- The doublings of 1 that the eight iterations add are the eight bits of a byte. -/
@[simp] theorem one_multiply : ∀ a : Byte, multiply 1#8 a = a := by decide

/-- Every byte is made from 1 by doubling and addition. -/
theorem byte_induction {P : Byte → Prop} (hzero : P 0#8) (hone : P 1#8) (hdoubled : ∀ a, P a → P (doubled a))
    (hxor : ∀ a b, P a → P b → P (a ^^^ b)) (a : Byte) : P a := by
  rw [← one_multiply a]
  exact multiplyLoop_keeps hzero hxor hdoubled a hzero hone

@[simp] theorem multiply_one (a : Byte) : multiply a 1#8 = a := by
  induction a using byte_induction with
  | hzero => rfl
  | hone => rfl
  | hdoubled a ih => rw [multiply_doubled_left, ih]
  | hxor a b iha ihb => rw [multiply_xor_left, iha, ihb]

theorem multiply_doubled_right (a b : Byte) : multiply a (doubled b) = doubled (multiply a b) := by
  induction a using byte_induction with
  | hzero => simp
  | hone => simp
  | hdoubled a ih => rw [multiply_doubled_left, multiply_doubled_left, ih]
  | hxor a a' iha iha' => rw [multiply_xor_left, multiply_xor_left, doubled_xor, iha, iha']

theorem multiply_comm (a b : Byte) : multiply a b = multiply b a := by
  induction a using byte_induction with
  | hzero => simp
  | hone => simp
  | hdoubled a ih => rw [multiply_doubled_left, multiply_doubled_right, ih]
  | hxor a a' iha iha' => rw [multiply_xor_left, multiply_xor_right, iha, iha']

theorem multiply_assoc (a b c : Byte) : multiply (multiply a b) c = multiply a (multiply b c) := by
  induction a using byte_induction with
  | hzero => simp
  | hone => simp
  | hdoubled a ih => simp only [multiply_doubled_left, ih]
  | hxor a a' iha iha' => simp only [multiply_xor_left, iha, iha']

/-- Settles O36: `Multiply` is linear in each operand, and the other laws follow from 1 by doubling and addition. -/
theorem multiplyRingLaws : Obligations.MultiplyRingLaws :=
  ⟨fun a => ⟨multiply_zero a, zero_multiply a⟩, fun a => ⟨multiply_one a, one_multiply a⟩, multiply_comm, multiply_assoc,
    multiply_xor_right, multiply_xor_left⟩

/-! ## The fixed multipliers (R95), as sums of doublings of 1 -/

section
variable (a : Byte)

theorem multiply_two : multiply a 2#8 = doubled a :=
  (multiply_doubled_right a 1#8).trans (by rw [multiply_one])

theorem multiply_four : multiply a 4#8 = doubled (doubled a) :=
  (multiply_doubled_right a 2#8).trans (by rw [multiply_two])

theorem multiply_eight : multiply a 8#8 = doubled (doubled (doubled a)) :=
  (multiply_doubled_right a 4#8).trans (by rw [multiply_four])

theorem multiply_three : multiply a 3#8 = doubled a ^^^ a :=
  (multiply_xor_right a 2#8 1#8).trans (by rw [multiply_two, multiply_one])

theorem multiply_nine : multiply a 9#8 = doubled (doubled (doubled a)) ^^^ a :=
  (multiply_xor_right a 8#8 1#8).trans (by rw [multiply_eight, multiply_one])

theorem multiply_ten : multiply a 10#8 = doubled (doubled (doubled a)) ^^^ doubled a :=
  (multiply_xor_right a 8#8 2#8).trans (by rw [multiply_eight, multiply_two])

theorem multiply_twelve : multiply a 12#8 = doubled (doubled (doubled a)) ^^^ doubled (doubled a) :=
  (multiply_xor_right a 8#8 4#8).trans (by rw [multiply_eight, multiply_four])

theorem multiply_eleven : multiply a 11#8 = doubled (doubled (doubled a)) ^^^ doubled a ^^^ a :=
  (multiply_xor_right a 10#8 1#8).trans (by rw [multiply_ten, multiply_one])

theorem multiply_thirteen : multiply a 13#8 = doubled (doubled (doubled a)) ^^^ doubled (doubled a) ^^^ a :=
  (multiply_xor_right a 12#8 1#8).trans (by rw [multiply_twelve, multiply_one])

theorem multiply_fourteen : multiply a 14#8 = doubled (doubled (doubled a)) ^^^ doubled (doubled a) ^^^ doubled a :=
  (multiply_xor_right a 12#8 2#8).trans (by rw [multiply_twelve, multiply_two])

end

/-- Settles O39: each multiplier is a sum of repeated doublings of 1. -/
theorem fixedMultipliersInClosedForm : Obligations.FixedMultipliersInClosedForm := fun a =>
  ⟨multiply_two a, multiply_three a, multiply_nine a, multiply_eleven a, multiply_thirteen a, multiply_fourteen a⟩

/-! ## The nine-bit form (R93) -/

theorem multiplyNineBitLoop_succ (n : Nat) (acc a : BitVec 9) (b : Byte) :
    multiplyNineBitLoop (n + 1) acc a b =
      multiplyNineBitLoop n (if b.getLsbD 0 then acc ^^^ a else acc)
        (if (a <<< 1).getLsbD 8 then a <<< 1 ^^^ 0x11B#9 else a <<< 1) (b >>> 1) := rfl

/-- Bit 8 of the shifted byte is the bit 7 that leaves the byte, and 0x11B is 0x1B with bit 8. -/
theorem reduced_setWidth_nine : ∀ a : Byte,
    (if (a.setWidth 9 <<< 1).getLsbD 8 then a.setWidth 9 <<< 1 ^^^ 0x11B#9 else a.setWidth 9 <<< 1) =
      (doubled a).setWidth 9 := by decide

theorem multiplyNineBitLoop_setWidth (n : Nat) (acc a b : Byte) :
    multiplyNineBitLoop n (acc.setWidth 9) (a.setWidth 9) b = (multiplyLoop n acc a b).setWidth 9 := by
  induction n generalizing acc a b with
  | zero => rfl
  | succ n ih =>
    rw [multiplyNineBitLoop_succ, reduced_setWidth_nine, multiplyLoop_succ, ← ih]
    cases b.getLsbD 0 <;> simp

/-- Settles O38: both loops hold the same bytes after every iteration. -/
theorem nineBitReductionAgrees : Obligations.NineBitReductionAgrees :=
  fun a b => multiplyNineBitLoop_setWidth 8 0#8 a b

/-! ## The powers of 3 (R94 (g) to (j)) -/

/-- One factor 3 more. -/
def timesThree (p : Byte) : Byte := multiply p 3#8

theorem timesThree_iterate (n : Nat) (a : Byte) : timesThree^[n] a = multiply a (timesThree^[n] 1#8) := by
  induction n with
  | zero => simp
  | succ n ih => rw [Function.iterate_succ_apply', Function.iterate_succ_apply', ih, timesThree, timesThree, multiply_assoc]

theorem timesThree_iterate_add (m n : Nat) :
    timesThree^[m + n] 1#8 = multiply (timesThree^[m] 1#8) (timesThree^[n] 1#8) := by
  rw [Nat.add_comm, Function.iterate_add_apply, timesThree_iterate n]

theorem timesThree_iterate_mul (m k : Nat) :
    timesThree^[m * k] 1#8 = (fun a => multiply a (timesThree^[m] 1#8))^[k] 1#8 := by
  rw [Function.iterate_mul]
  exact congrArg (·^[k] 1#8) (funext (timesThree_iterate m))

theorem timesThree_iterate_17 : timesThree^[17] 1#8 = 0xE1#8 := by decide

theorem timesThree_iterate_51 : timesThree^[51] 1#8 = 0x0C#8 :=
  (timesThree_iterate_mul 17 3).trans (by rw [timesThree_iterate_17]; rfl)

theorem timesThree_iterate_85 : timesThree^[85] 1#8 = 0xBD#8 :=
  (timesThree_iterate_mul 17 5).trans (by rw [timesThree_iterate_17]; rfl)

theorem timesThree_iterate_255 : timesThree^[255] 1#8 = 1#8 :=
  (timesThree_iterate_mul 85 3).trans (by rw [timesThree_iterate_85]; rfl)

/-- A divisor of 3 * 5 * 17 that is not the whole leaves one of the three primes out. -/
theorem dvd_255_cases {p : Nat} (hp : p ∣ 255) : p = 255 ∨ p ∣ 85 ∨ p ∣ 51 ∨ p ∣ 15 := by
  have hmem : p ∈ Nat.divisors 255 := Nat.mem_divisors.mpr ⟨hp, by decide⟩
  simp only [Nat.divisors_ofNat, Finset.mem_insert, Finset.mem_singleton] at hmem
  rcases hmem with rfl | rfl | rfl | rfl | rfl | rfl | rfl | rfl <;> decide

/-- The powers of 3 return to 1 after 255 steps, and not after 255/3, 255/5 or 255/17. -/
theorem timesThree_minimalPeriod : Function.minimalPeriod timesThree 1#8 = 255 := by
  have h255 : Function.IsPeriodicPt timesThree 255 1#8 := timesThree_iterate_255
  rcases dvd_255_cases h255.minimalPeriod_dvd with h | h | h | h
  · exact h
  · exact absurd ((Function.isPeriodicPt_iff_minimalPeriod_dvd.mpr h).eq.symm.trans timesThree_iterate_85) (by decide)
  · exact absurd ((Function.isPeriodicPt_iff_minimalPeriod_dvd.mpr h).eq.symm.trans timesThree_iterate_51) (by decide)
  · exact absurd (Function.isPeriodicPt_iff_minimalPeriod_dvd.mpr h).eq (by decide)

/-- From 0 no power of 3 leads back to 1. -/
theorem timesThree_iterate_ne_zero {n : Nat} (hn : n ≤ 255) : timesThree^[n] 1#8 ≠ 0#8 := by
  intro h
  have h255 := timesThree_iterate_add n (255 - n)
  rw [Nat.add_sub_cancel' hn, timesThree_iterate_255, h, zero_multiply] at h255
  exact absurd h255 (by decide)

theorem toNat_mem_Icc {a : Byte} (ha : a ≠ 0#8) : a.toNat ∈ Finset.Icc 1 255 := by
  have hpos : a.toNat ≠ 0 := by simpa [BitVec.toNat_eq] using ha
  have hlt := a.isLt
  rw [Finset.mem_Icc]
  omega

/-- 255 different powers, none of them zero: every non-zero byte is one. -/
theorem exists_timesThree_iterate {a : Byte} (ha : a ≠ 0#8) : ∃ n < 255, timesThree^[n] 1#8 = a := by
  have hmaps : Set.MapsTo (fun n => (timesThree^[n] 1#8).toNat) (Finset.range 255) (Finset.Icc 1 255) := fun n hn =>
    toNat_mem_Icc (timesThree_iterate_ne_zero (Finset.mem_range.mp hn).le)
  have hinj : Set.InjOn (fun n => (timesThree^[n] 1#8).toNat) (Finset.range 255) := by
    have h := Function.iterate_injOn_Iio_minimalPeriod (f := timesThree) (x := 1#8)
    rw [timesThree_minimalPeriod] at h
    rw [Finset.coe_range]
    exact fun m hm n hn hmn => h hm hn (BitVec.eq_of_toNat_eq hmn)
  obtain ⟨n, hn, h⟩ := Finset.surjOn_of_injOn_of_card_le _ hmaps hinj (by simp) (toNat_mem_Icc ha)
  exact ⟨n, Finset.mem_range.mp hn, BitVec.eq_of_toNat_eq h⟩

/-! ## Inverses (R94 (g) to (j)) -/

/-- The inverse of a power of 3 is the power that completes it to the 255th. -/
theorem exists_inverse {a : Byte} (ha : a ≠ 0#8) : ∃ b, multiply a b = 1#8 := by
  obtain ⟨n, hn, rfl⟩ := exists_timesThree_iterate ha
  refine ⟨timesThree^[255 - n] 1#8, ?_⟩
  rw [← timesThree_iterate_add, Nat.add_sub_cancel' hn.le, timesThree_iterate_255]

theorem multiply_multiply_inverse {a b : Byte} (h : multiply a b = 1#8) (c : Byte) : multiply (multiply c a) b = c := by
  rw [multiply_assoc, h, multiply_one]

theorem multiply_bijective {a : Byte} (ha : a ≠ 0#8) : Function.Bijective fun c => multiply c a := by
  obtain ⟨b, hb⟩ := exists_inverse ha
  exact Function.bijective_iff_has_inverse.mpr ⟨fun c => multiply c b, multiply_multiply_inverse hb,
    multiply_multiply_inverse (multiply_comm b a ▸ hb)⟩

theorem eq_zero_of_multiply_eq_zero {a b : Byte} (h : multiply a b = 0#8) : a = 0#8 ∨ b = 0#8 := by
  by_cases hb : b = 0#8
  · exact .inr hb
  · exact .inl ((multiply_bijective hb).injective (h.trans (zero_multiply b).symm))

theorem existsUnique_inverse {a : Byte} (ha : a ≠ 0#8) : ∃! b, multiply a b = 1#8 := by
  simpa only [multiply_comm a] using (multiply_bijective ha).existsUnique 1#8

/-- Settles O37: the powers of 3 are the non-zero bytes, so each of these has an inverse, and multiplication by it can be
undone. -/
theorem multiplyFieldLaws : Obligations.MultiplyFieldLaws := by
  refine ⟨fun a b => eq_zero_of_multiply_eq_zero, fun a => existsUnique_inverse, fun b => by simp, ⟨?_, ?_, ?_⟩,
    fun n => multiply_bijective⟩
  · intro a ha
    obtain ⟨n, hn, rfl⟩ := exists_timesThree_iterate ha
    rcases Nat.eq_zero_or_pos n with rfl | hpos
    · exact ⟨255, by decide, le_rfl, timesThree_iterate_255⟩
    · exact ⟨n, hpos, hn.le, rfl⟩
  · exact timesThree_iterate_255
  · intro n hpos hn
    exact Function.not_isPeriodicPt_of_pos_of_lt_minimalPeriod (Nat.ne_of_gt hpos) (timesThree_minimalPeriod ▸ hn)

end Sys2Proof.Machine
end

section
/-! PROOF. GFMUL (40_galois_field.md R99) and the multiplier tables (R96, R97). -/

namespace Sys2Proof.Machine

/-- Lane 0 is the byte, and the other lanes are of the zero bits below it. -/
theorem busOfByte_eq_append (p : Byte) : busOfByte p = p ++ 0#120 := by
  refine bus_ext_lanes fun i hi => ?_
  rw [busOfByte, lane_busOfBlock _ i hi, Block.getElem_ofFn]
  cases i with
  | zero => exact BitVec.extractLsb'_append_eq_left.symm
  | succ i =>
    rw [BitVec.extractLsb'_append_eq_of_add_le (by omega)]
    simp

/-- Settles O20: GFMUL needs nothing, so a running engine accepts it. -/
theorem gfmulCommand : Obligations.GfmulCommand := by
  refine fun s => ⟨exec_of_halted .gfmul, fun hf => ?_⟩
  have hresult : s.result .gfmul = multiply (s.din.extractLsb' 120 8) (s.din.extractLsb' 112 8) ++ 0#120 := by
    rw [State.result, busOfByte_eq_append, State.operand, getElem_blockOfBus, getElem_blockOfBus]
  calc exec .gfmul s = .next (s.accept (s.result .gfmul)) := command_of_running_free (State.accepted .gfmul) hf
    _ = _ := by rw [hresult]; rfl

theorem getElem_buildMultiplierTable (n i : Byte) : (buildMultiplierTable n)[i.toNat]'i.isLt = multiply i n := by
  simp [buildMultiplierTable]

/-! The listings of R97, all 256 entries of each. -/

theorem rom_mul2 : ∀ i : Byte, rom .mul2 i = multiply i 2#8 := by decide
theorem rom_mul3 : ∀ i : Byte, rom .mul3 i = multiply i 3#8 := by decide
theorem rom_mul9 : ∀ i : Byte, rom .mul9 i = multiply i 9#8 := by decide
theorem rom_mul11 : ∀ i : Byte, rom .mul11 i = multiply i 11#8 := by decide
theorem rom_mul13 : ∀ i : Byte, rom .mul13 i = multiply i 13#8 := by decide
theorem rom_mul14 : ∀ i : Byte, rom .mul14 i = multiply i 14#8 := by decide

/-- Settles O40: the builder and the listings both hold the products. -/
theorem multiplierTablesAreBuilt : Obligations.MultiplierTablesAreBuilt := by
  refine ⟨getElem_buildMultiplierTable, fun i => ?_⟩
  simp only [getElem_buildMultiplierTable]
  exact ⟨rom_mul2 i, rom_mul3 i, rom_mul9 i, rom_mul11 i, rom_mul13 i, rom_mul14 i⟩

end Sys2Proof.Machine
end

section
/-! PROOF. The substitution tables: the affine step of the field inverse (41_sbox.md R112), inverse permutations (R116), and
what the generator writes (R110, R111, R113). -/

namespace Sys2Proof.Machine

/-! ## The affine step (R112) -/

theorem rotl8_eq_rotateLeft (q : Byte) {n : Nat} (hn : n < 8) : rotl8 q n = q.rotateLeft n := by
  rw [rotl8, BitVec.rotateLeft, Nat.mod_eq_of_lt hn]
  rfl

/-- Bit `i` of `rotl8(q, n)` is bit `(i - n) mod 8` of `q`. -/
theorem getLsbD_rotl8 (q : Byte) {n i : Nat} (hn : n < 8) (hi : i < 8) :
    (rotl8 q n).getLsbD i = q.getLsbD ((i + (8 - n)) % 8) := by
  rw [rotl8_eq_rotateLeft q hn, BitVec.getLsbD_rotateLeft_of_le hn]
  by_cases h : i < n
  · have hindex : (i + (8 - n)) % 8 = 8 - n + i := by omega
    simp [h, hindex]
  · have hindex : (i + (8 - n)) % 8 = i - n := by omega
    simp [h, hi, hindex]

theorem getLsbD_affine (q : Byte) {i : Nat} (hi : i < 8) :
    (affine q).getLsbD i = (q.getLsbD i ^^ q.getLsbD ((i + 7) % 8) ^^ q.getLsbD ((i + 6) % 8) ^^
      q.getLsbD ((i + 5) % 8) ^^ q.getLsbD ((i + 4) % 8) ^^ (0x63#8).getLsbD i) := by
  simp only [affine, BitVec.getLsbD_xor, getLsbD_rotl8 q (by decide : 1 < 8) hi, getLsbD_rotl8 q (by decide : 2 < 8) hi,
    getLsbD_rotl8 q (by decide : 3 < 8) hi, getLsbD_rotl8 q (by decide : 4 < 8) hi]

/-- What undoes the affine step. -/
def unaffine (z : Byte) : Byte := rotl8 z 1 ^^^ rotl8 z 3 ^^^ rotl8 z 6 ^^^ 0x05#8

theorem affine_unaffine : ∀ z : Byte, affine (unaffine z) = z := by decide

/-! ## `SBOX` and the field inverse (R112) -/

/-- The listing of R114: what `SBOX` holds for a non-zero byte is made from its inverse. -/
theorem multiply_unaffine_sbox : ∀ x : Byte, x ≠ 0#8 → multiply x (unaffine (rom .sbox x)) = 1#8 := by decide

theorem sbox_zero : rom .sbox 0#8 = affine 0#8 := by decide

theorem sbox_of_multiply_eq_one {x y : Byte} (h : multiply x y = 1#8) : rom .sbox x = affine y := by
  have hx : x ≠ 0#8 := by
    rintro rfl
    simp at h
  rw [(existsUnique_inverse hx).unique h (multiply_unaffine_sbox x hx), affine_unaffine]

/-- Settles O42: a non-zero byte has one inverse only, and the affine step can be undone, so the listing need only be
compared with one inverse of each byte. -/
theorem sboxIsAffineOfInverse : Obligations.SboxIsAffineOfInverse :=
  ⟨fun q _ hi => getLsbD_affine q hi, sbox_zero, fun _ _ => sbox_of_multiply_eq_one⟩

/-! ## The two tables as permutations (R116) -/

/-- The listings of R114 and R115 against each other. -/
theorem invsbox_sbox : Function.LeftInverse (rom .invsbox) (rom .sbox) := by
  unfold Function.LeftInverse
  decide

theorem sbox_injective : Function.Injective (rom .sbox) := invsbox_sbox.injective

/-- An injective map of the 256 bytes is onto, so the inverse from one side is the inverse from the other. -/
theorem sbox_invsbox : Function.RightInverse (rom .invsbox) (rom .sbox) :=
  invsbox_sbox.rightInverse_of_surjective (Finite.surjective_of_injective sbox_injective)

theorem sbox_ne_self : ∀ x : Byte, rom .sbox x ≠ x := by decide

theorem sbox_ne_complement : ∀ x : Byte, rom .sbox x ≠ x ^^^ 0xFF#8 := by decide

/-- Settles O43: `INVSBOX` undoes `SBOX`, and for maps of a finite set this is enough. -/
theorem substitutionTablesAreInverse : Obligations.SubstitutionTablesAreInverse :=
  fun x => ⟨invsbox_sbox x, sbox_invsbox x, sbox_ne_self x, sbox_ne_complement x⟩

/-! ## The generator (R110, R111, R113)

Every write of the generator records an entry of `SBOX` and, at that entry, the byte it came from. A record is never spoiled by
a later one, and the loop records the powers of 3, which are the non-zero bytes. -/

/-- The two writes the generator makes for the byte `x`. -/
def record (x : Byte) (tables : Vector Byte 256 × Vector Byte 256) : Vector Byte 256 × Vector Byte 256 :=
  (tables.1.set x.toNat (rom .sbox x) x.isLt, tables.2.set (rom .sbox x).toNat x (rom .sbox x).isLt)

/-- The tables of the generator hold what `SBOX` says of the byte `x`. -/
def Recorded (tables : Vector Byte 256 × Vector Byte 256) (x : Byte) : Prop :=
  tables.1[x.toNat]'x.isLt = rom .sbox x ∧ tables.2[(rom .sbox x).toNat]'(rom .sbox x).isLt = x

theorem recorded_record (x : Byte) (tables : Vector Byte 256 × Vector Byte 256) : Recorded (record x tables) x := by
  simp [Recorded, record]

/-- `SBOX` is injective, so the writes for two bytes meet in neither table. -/
theorem Recorded.after_record {x : Byte} {tables : Vector Byte 256 × Vector Byte 256} (h : Recorded tables x) (y : Byte) :
    Recorded (record y tables) x := by
  by_cases hyx : y = x
  · subst hyx
    exact recorded_record y tables
  · have hindex : y.toNat ≠ x.toNat := mt BitVec.eq_of_toNat_eq hyx
    have hentry : (rom .sbox y).toNat ≠ (rom .sbox x).toNat := mt BitVec.eq_of_toNat_eq (sbox_injective.ne hyx)
    obtain ⟨hsbox, hinv⟩ := h
    refine ⟨?_, ?_⟩
    · rw [record, Vector.getElem_set_ne _ _ hindex, hsbox]
    · rw [record, Vector.getElem_set_ne _ _ hentry, hinv]

/-- 0xF6 is the inverse of 3, so the two bytes of the loop stay inverse to each other (the loop invariant of R110). -/
theorem multiply_loop_bytes {p q : Byte} (h : multiply p q = 1#8) : multiply (timesThree p) (multiply q 0xF6#8) = 1#8 := by
  have hthree : multiply 3#8 (multiply q 0xF6#8) = q := by
    rw [multiply_comm q, ← multiply_assoc]
    exact one_multiply q
  rw [timesThree, multiply_assoc, hthree, h]

/-- An iteration of the loop makes the record of the next power of 3. -/
theorem generateLoop_succ (fuel : Nat) {p q : Byte} (h : multiply p q = 1#8) (tables : Vector Byte 256 × Vector Byte 256) :
    generateLoop (fuel + 1) p q tables.1 tables.2 =
      if timesThree p = 1#8 then record (timesThree p) tables
      else generateLoop fuel (timesThree p) (multiply q 0xF6#8) (record (timesThree p) tables).1
        (record (timesThree p) tables).2 := by
  simp only [record, sbox_of_multiply_eq_one (multiply_loop_bytes h)]
  rfl

/-- With the first `n` powers of 3 recorded and iterations left for the others up to 255, the loop records them all: it stops
early only at a power that is 1, and that is the 255th. -/
theorem generateLoop_records {fuel n : Nat} (hfuel : n + fuel = 255) {q : Byte}
    (hq : multiply (timesThree^[n] 1#8) q = 1#8) {tables : Vector Byte 256 × Vector Byte 256}
    (hrecorded : ∀ k, 1 ≤ k → k ≤ n → Recorded tables (timesThree^[k] 1#8)) (k : Nat) (hpos : 1 ≤ k) (hk : k ≤ 255) :
    Recorded (generateLoop fuel (timesThree^[n] 1#8) q tables.1 tables.2) (timesThree^[k] 1#8) := by
  induction fuel generalizing n q tables with
  | zero => exact hrecorded k hpos (by omega)
  | succ fuel ih =>
    have hnext : ∀ k, 1 ≤ k → k ≤ n + 1 →
        Recorded (record (timesThree^[n + 1] 1#8) tables) (timesThree^[k] 1#8) := by
      intro k hpos hk
      rcases Nat.lt_or_eq_of_le hk with hlt | rfl
      · exact (hrecorded k hpos (Nat.lt_succ_iff.mp hlt)).after_record _
      · exact recorded_record _ _
    have hq' := multiply_loop_bytes hq
    rw [generateLoop_succ fuel hq]
    rw [← Function.iterate_succ_apply' timesThree n] at hq' ⊢
    split
    · next hone =>
      have hlast : 255 ≤ n + 1 := timesThree_minimalPeriod ▸ Function.IsPeriodicPt.minimalPeriod_le n.succ_pos hone
      exact hnext k hpos (hk.trans hlast)
    · exact ih (by omega) hq' hnext

/-- From empty tables the loop records every non-zero byte, and the two writes after it make the record of zero (R113). -/
theorem recorded_generateSboxes (x : Byte) : Recorded generateSboxes x := by
  have hzero (tables : Vector Byte 256 × Vector Byte 256) :
      (tables.1.set 0x00 0x63#8, tables.2.set 0x63 0x00#8) = record 0#8 tables := rfl
  rw [generateSboxes, hzero]
  by_cases hx : x = 0#8
  · subst hx
    exact recorded_record _ _
  · obtain ⟨-, -, -, ⟨hpowers, -⟩, -⟩ := multiplyFieldLaws
    obtain ⟨k, hpos, hk, rfl⟩ := hpowers x hx
    have hloop := generateLoop_records (fuel := 255) (n := 0) (q := 1#8) (Nat.zero_add 255) (one_multiply 1#8)
      (tables := (Vector.replicate 256 0x00#8, Vector.replicate 256 0x00#8)) (by omega) k hpos hk
    exact hloop.after_record 0#8

/-- Settles O41: the generator records every byte, and `INVSBOX` undoes `SBOX`. -/
theorem substitutionTablesAreGenerated : Obligations.SubstitutionTablesAreGenerated := by
  intro x
  obtain ⟨hsbox, -⟩ := recorded_generateSboxes x
  obtain ⟨-, hinv⟩ := recorded_generateSboxes (rom .invsbox x)
  simp only [sbox_invsbox x] at hinv
  exact ⟨hsbox.symm, hinv.symm⟩

end Sys2Proof.Machine
end

section
/-! PROOF. The key schedule (42_key_schedule.md R120 to R128): the round constants, the expansion on its 44 words and on the
eleven round keys, and the commands KEYEXP and RDRK. -/

namespace Sys2Proof.Machine

/-- The listing of R123, entry by entry. -/
theorem rcon_succ : ∀ j : Fin 9, rcon (j.val + 1 + 1) (by omega) = multiply (rcon (j.val + 1) (by omega)) 2#8 := by
  decide

/-- Settles O44: the nine doublings, read off the listing. -/
theorem rconIsSuccessiveDoubling : Obligations.RconIsSuccessiveDoubling := by
  refine ⟨rfl, fun j h => ?_⟩
  obtain ⟨k, rfl⟩ := Nat.exists_eq_add_of_le' h.1
  exact rcon_succ ⟨k, by omega⟩

/-! ## One word from two earlier ones (R120) -/

/-- `RotWord`, `SubWord` and the round constant, byte by byte. -/
theorem getElem_nextWord_of_mod_eq_zero {i : Nat} (h : 4 ≤ i ∧ i < 44) (hi : i % 4 = 0) (prev back4 : Word) (k : Fin 4) :
    (nextWord i h prev back4)[k.val] =
      back4[k.val] ^^^ rom .sbox prev[(k + 1).val] ^^^ (if k = 0 then rcon (i / 4) (by omega) else 0x00#8) := by
  rw [nextWord, if_pos hi]
  fin_cases k <;> simp [xorWord, subWord, rotWord, BitVec.xor_assoc]

theorem getElem_nextWord_of_mod_ne_zero {i : Nat} (h : 4 ≤ i ∧ i < 44) (hi : i % 4 ≠ 0) (prev back4 : Word) (k : Nat)
    (hk : k < 4) : (nextWord i h prev back4)[k] = back4[k] ^^^ prev[k] := by
  simp [nextWord, hi, xorWord]

/-! ## The 44 words (R120) -/

/-- A word, once written, is kept by the later steps of the expansion. -/
theorem getElem_expandWords_of_le (key : Block) {n m : Nat} (hnm : n ≤ m) (hm : m ≤ 40) {i : Nat} (hi : i < n + 4) :
    (expandWords key m hm)[i] = (expandWords key n (hnm.trans hm))[i] := by
  induction m, hnm using Nat.le_induction with
  | base => rfl
  | succ m hnm ih =>
    rw [expandWords, Vector.getElem_push_lt (by omega)]
    exact ih (by omega)

theorem getElem_keyWords_of_lt_four (key : Block) {i k : Nat} (hi : i < 4) (hk : k < 4) :
    (keyWords key)[i][k] = key[4 * i + k] := by
  rw [keyWords, getElem_expandWords_of_le key (Nat.zero_le 40) _ hi, expandWords]
  interval_cases i <;> interval_cases k <;> rfl

/-- The recurrence of R120 on words. -/
theorem getElem_keyWords_add_four (key : Block) {i : Nat} (hi : i < 40) :
    (keyWords key)[i + 4] = nextWord (i + 4) (by omega) (keyWords key)[i + 3] (keyWords key)[i] := by
  have hword {j : Nat} (hj : j < i + 4) : (keyWords key)[j] = (expandWords key i hi.le)[j] :=
    getElem_expandWords_of_le key hi.le _ hj
  rw [hword (by omega : i + 3 < i + 4), hword (by omega : i < i + 4), keyWords,
    getElem_expandWords_of_le key (Nat.succ_le_of_lt hi) _ (by omega : i + 4 < i + 1 + 4), expandWords,
    Vector.getElem_push_eq]

/-- The recurrence byte by byte, for the words that begin a round key. -/
theorem getElem_keyWords_add_four_of_mod_eq_zero (key : Block) {i : Nat} (hi : i < 40) (hmod : (i + 4) % 4 = 0) (k : Fin 4) :
    (keyWords key)[i + 4][k.val] = (keyWords key)[i][k.val] ^^^ rom .sbox (keyWords key)[i + 3][(k + 1).val] ^^^
      (if k = 0 then rcon ((i + 4) / 4) (by omega) else 0x00#8) := by
  rw [getElem_keyWords_add_four key hi, getElem_nextWord_of_mod_eq_zero _ hmod]

/-- The recurrence byte by byte, for the other words. -/
theorem getElem_keyWords_add_four_of_mod_ne_zero (key : Block) {i : Nat} (hi : i < 40) (hmod : (i + 4) % 4 ≠ 0) {k : Nat}
    (hk : k < 4) : (keyWords key)[i + 4][k] = (keyWords key)[i][k] ^^^ (keyWords key)[i + 3][k] := by
  rw [getElem_keyWords_add_four key hi, getElem_nextWord_of_mod_ne_zero _ hmod]

/-! ## The eleven round keys (R124) -/

theorem getElem_keyExpansion (key : Block) {r i : Nat} (hr : r < 11) (hi : i < 16) :
    (keyExpansion key)[r][i] = (keyWords key)[4 * r + i / 4][i % 4] := by
  simp [keyExpansion, roundKeyOfWords]

/-- Word `i` of the expansion stands in round key `i / 4`. -/
theorem getElem_keyExpansion_word (key : Block) {i : Nat} (hi : i < 44) (k : Fin 4) :
    ((keyExpansion key)[i / 4]'(by omega))[4 * (i % 4) + k.val] = (keyWords key)[i][k.val] := by
  have hword : 4 * (i / 4) + (4 * (i % 4) + k.val) / 4 = i := by omega
  have hbyte : (4 * (i % 4) + k.val) % 4 = k.val := by omega
  simp only [getElem_keyExpansion, hword, hbyte]

/-- Settles O49: the recurrence on the words that the round keys are made of. -/
theorem keyScheduleRecurrence : Obligations.KeyScheduleRecurrence := by
  refine fun key => ⟨fun i hi k => ?_, fun i h hmod k => ?_, fun i h hmod k => ?_⟩
  · exact (getElem_keyExpansion_word key (by omega) k).trans (getElem_keyWords_of_lt_four key hi k.isLt)
  all_goals
    obtain ⟨j, rfl⟩ := Nat.exists_eq_add_of_le' h.1
    simp (disch := omega) only [getElem_keyExpansion_word]
  · exact getElem_keyWords_add_four_of_mod_eq_zero key (by omega) hmod k
  · exact getElem_keyWords_add_four_of_mod_ne_zero key (by omega) hmod k.isLt

/-! ## The expansion on round keys (R125) -/

theorem keyExpansion_zero (key : Block) : (keyExpansion key)[0] = key :=
  Vector.ext fun i hi => by
    rw [getElem_keyExpansion key (by omega) hi, getElem_keyWords_of_lt_four key (by omega) (by omega)]
    simp [Nat.div_add_mod]

/-- The first word of a round key. -/
theorem getElem_keyExpansion_succ_head (key : Block) {r : Nat} (hr : r < 10) (k : Fin 4) :
    (keyExpansion key)[r + 1][k.val] = (keyExpansion key)[r][k.val] ^^^
      rom .sbox ((keyExpansion key)[r][12 + (k + 1).val]) ^^^ (if k = 0 then rcon (r + 1) (by omega) else 0x00#8) := by
  have hmod : (4 * r + 4) % 4 = 0 := by omega
  have hround : (4 * r + 4) / 4 = r + 1 := by omega
  have hword : 4 * (r + 1) + k.val / 4 = 4 * r + 4 := by omega
  have hback : 4 * r + k.val / 4 = 4 * r := by omega
  have hprev : 4 * r + (12 + (k + 1).val) / 4 = 4 * r + 3 := by omega
  have hbyte : (12 + (k + 1).val) % 4 = (k + 1).val := by omega
  simp only [getElem_keyExpansion, hword, hback, hprev, hbyte, Nat.mod_eq_of_lt k.isLt]
  simpa only [hround] using getElem_keyWords_add_four_of_mod_eq_zero key (i := 4 * r) (by omega) hmod k

/-- The other three words of a round key. -/
theorem getElem_keyExpansion_succ_tail (key : Block) {r i : Nat} (hr : r < 10) (hi : i < 12) :
    (keyExpansion key)[r + 1][i + 4] = (keyExpansion key)[r][i + 4] ^^^ (keyExpansion key)[r + 1][i] := by
  have hmod : (4 * r + i / 4 + 1 + 4) % 4 ≠ 0 := by omega
  have hword : 4 * (r + 1) + (i + 4) / 4 = 4 * r + i / 4 + 1 + 4 := by omega
  have hback : 4 * r + (i + 4) / 4 = 4 * r + i / 4 + 1 := by omega
  have hprev : 4 * (r + 1) + i / 4 = 4 * r + i / 4 + 1 + 3 := by omega
  simp only [getElem_keyExpansion, hword, hback, hprev, Nat.add_mod_right]
  exact getElem_keyWords_add_four_of_mod_ne_zero key (by omega) hmod (by omega)

/-- Settles O50: a round key is made of its first word and the three after it. -/
theorem keyScheduleOnRoundKeys : Obligations.KeyScheduleOnRoundKeys := by
  refine fun key => ⟨keyExpansion_zero key, fun r h => ?_⟩
  obtain ⟨q, rfl⟩ := Nat.exists_eq_add_of_le' h.1
  have hhead := getElem_keyExpansion_succ_head key (r := q) (by omega)
  refine ⟨hhead 0, ?_, ?_, ?_, fun i hi => ?_⟩
  · simpa using hhead 1
  · simpa using hhead 2
  · simpa using hhead 3
  · obtain ⟨j, rfl⟩ := Nat.exists_eq_add_of_le' hi.1
    exact getElem_keyExpansion_succ_tail key (by omega) (by omega)

/-! ## The commands (R127, R128) -/

/-- Settles O21: KEYEXP needs nothing, so a running engine accepts it. -/
theorem keyexpCommand : Obligations.KeyexpCommand :=
  fun _ => ⟨exec_of_halted .keyexp, command_of_running_free (State.accepted .keyexp)⟩

theorem exec_rdrk_of_gt {idx : BitVec 4} (h : 10 < idx.toNat) (s : State) : exec (.rdrk idx) s = refuse .idx s := by
  rw [exec, execRdrk, roundKeyNumber_of_gt h]

theorem exec_rdrk_of_le {idx : BitVec 4} (h : idx.toNat ≤ 10) (s : State) :
    exec (.rdrk idx) s = command { rk := true } (fun s => s.accept (busOfBlock (s.RK[idx.toNat]'(by omega)))) s := by
  rw [exec, execRdrk, roundKeyNumber_of_le h]
  rfl

/-- Settles O22: the index decides before admission looks at the key. -/
theorem rdrkCommand : Obligations.RdrkCommand := by
  refine fun s idx => ⟨exec_of_halted (.rdrk idx), fun hf hidx => ?_, fun hf hidx hkey => ?_, fun hidx hf hkey => ?_⟩
  · rw [exec_rdrk_of_gt hidx]
    exact refuse_of_running .idx hf
  · have hraise : admission { rk := true } s = .raise .noKey := by simp [admission_of_running _ hf, hkey]
    rw [exec_rdrk_of_le hidx]
    exact command_of_admission_raise _ hraise
  · rw [exec_rdrk_of_le hidx]
    exact command_of_met _ hf rfl (fun _ => hkey) (by simp)

end Sys2Proof.Machine
end

section
/-! PROOF. The round transforms on blocks (43_round_transforms.md R138 to R154). Each is read entry by entry: SubBytes at one
byte, ShiftRows at one column index, MixColumns as the product of a column with a circulant matrix over the field of R90. -/

namespace Sys2Proof.Machine

/-- The other direction. -/
def opposite : Direction → Direction
  | .forward => .inverse
  | .inverse => .forward

/-! ## SubBytes (R138, R139) -/

/-- The table of a direction (R138). -/
def substitutionTable : Direction → Table
  | .forward => .sbox
  | .inverse => .invsbox

@[simp] theorem getElem_subBytes (d : Direction) (B : Block) (i : Nat) (h : i < 16) :
    (subBytes d B)[i] = rom (substitutionTable d) B[i] := by
  cases d with
  | forward => exact getElem_subBytes_forward B i h
  | inverse => exact getElem_subBytes_inverse B i h

@[simp] theorem matrixAt_subBytes (d : Direction) (B : Block) (r c : Fin 4) :
    matrixAt (subBytes d B) r c = rom (substitutionTable d) (matrixAt B r c) :=
  getElem_subBytes d B _ _

theorem substitutionTable_leftInverse (d : Direction) :
    Function.LeftInverse (rom (substitutionTable (opposite d))) (rom (substitutionTable d)) := by
  cases d with
  | forward => exact invsbox_sbox
  | inverse => exact sbox_invsbox

theorem subBytes_leftInverse (d : Direction) : Function.LeftInverse (subBytes (opposite d)) (subBytes d) :=
  fun B => block_ext_matrix fun r c => by simp [substitutionTable_leftInverse d _]

/-! ## ShiftRows (R142, R143) -/

/-- The column that row `r` of column `c` comes from; `+` and `-` are modulo 4 (R142). -/
def sourceColumn : Direction → (r c : Fin 4) → Fin 4
  | .forward, r, c => c + r
  | .inverse, r, c => c - r

@[simp] theorem matrixAt_shiftRows (d : Direction) (B : Block) (r c : Fin 4) :
    matrixAt (shiftRows d B) r c = matrixAt B r (sourceColumn d r c) := by
  cases d with
  | forward => exact matrixAt_shiftRows_forward B r c
  | inverse => exact matrixAt_shiftRows_inverse B r c

theorem sourceColumn_opposite (d : Direction) (r c : Fin 4) :
    sourceColumn d r (sourceColumn (opposite d) r c) = c := by
  cases d with
  | forward => exact sub_add_cancel c r
  | inverse => exact add_sub_cancel_right c r

@[simp] theorem sourceColumn_zero (d : Direction) (c : Fin 4) : sourceColumn d 0 c = c := by
  cases d with
  | forward => exact add_zero c
  | inverse => exact sub_zero c

theorem sourceColumn_two : ∀ c : Fin 4, sourceColumn .forward 2 c = sourceColumn .inverse 2 c := by decide

theorem sourceColumn_four_times (r : Fin 4) : ∀ c : Fin 4, (sourceColumn .forward r)^[4] c = c := by
  revert r
  decide

theorem shiftRows_leftInverse (d : Direction) : Function.LeftInverse (shiftRows (opposite d)) (shiftRows d) :=
  fun B => block_ext_matrix fun r c => by simp [sourceColumn_opposite]

/-- Settles O45: the tables undo each other, and the two transforms act on the value and on the place of a byte. -/
theorem subBytesLaws : Obligations.SubBytesLaws :=
  fun B => ⟨subBytes_leftInverse .forward B, subBytes_leftInverse .inverse B,
    fun d d' => block_ext_matrix fun r c => by simp⟩

/-- Settles O46: each law is one of the column a byte comes from. -/
theorem shiftRowsLaws : Obligations.ShiftRowsLaws := by
  refine fun B => ⟨shiftRows_leftInverse .forward B, shiftRows_leftInverse .inverse B, fun d c => ?_, fun c => ?_, ?_,
    fun hB d => ?_⟩
  · simpa [matrixAt] using matrixAt_shiftRows d B 0 c
  · change matrixAt (shiftRows .forward B) 2 c = matrixAt (shiftRows .inverse B) 2 c
    rw [matrixAt_shiftRows, matrixAt_shiftRows, sourceColumn_two]
  · refine block_ext_matrix fun r c => ?_
    simp only [matrixAt_shiftRows]
    exact congrArg (matrixAt B r) (sourceColumn_four_times r c)
  · refine block_ext_matrix fun r c => ?_
    rw [matrixAt_shiftRows]
    exact (hB r _).trans (hB r c).symm

/-! ## AddRoundKey (R151) -/

@[simp] theorem matrixAt_addRoundKey (A B : Block) (r c : Fin 4) :
    matrixAt (addRoundKey A B) r c = matrixAt A r c ^^^ matrixAt B r c :=
  getElem_addRoundKey A B _ _

theorem addRoundKey_addRoundKey (B K : Block) : addRoundKey (addRoundKey B K) K = B :=
  block_ext_matrix fun r c => by simp

/-! ## Sums of four bytes -/

/-- The sum over the four rows of a column. -/
def rowSum (f : Fin 4 → Byte) : Byte := f 0 ^^^ f 1 ^^^ f 2 ^^^ f 3

theorem rowSum_xor (f g : Fin 4 → Byte) : (rowSum fun k => f k ^^^ g k) = rowSum f ^^^ rowSum g := by
  simp only [rowSum]
  ac_rfl

theorem rowSum_comm (f : Fin 4 → Fin 4 → Byte) :
    (rowSum fun k => rowSum fun j => f k j) = rowSum fun j => rowSum fun k => f k j := by
  simp only [rowSum]
  ac_rfl

theorem multiply_rowSum (a : Byte) (f : Fin 4 → Byte) : multiply a (rowSum f) = rowSum fun k => multiply a (f k) := by
  simp only [rowSum, multiply_xor_right]

theorem rowSum_multiply (f : Fin 4 → Byte) (a : Byte) : multiply (rowSum f) a = rowSum fun k => multiply (f k) a := by
  simp only [rowSum, multiply_xor_left]

/-- A row of the identity matrix picks one byte of a column. -/
theorem rowSum_multiply_one (r : Fin 4) (a : Fin 4 → Byte) :
    (rowSum fun k => multiply (if k = r then 1#8 else 0#8) (a k)) = a r := by
  fin_cases r <;> simp [rowSum]

/-! ## MixColumns (R146 to R148) -/

/-- Row 0 of the matrix of a direction (R146, R147). -/
def matrixBase : Direction → Fin 4 → Byte
  | .forward => fun k => (#v[2#8, 3#8, 1#8, 1#8] : Word)[k]
  | .inverse => fun k => (#v[14#8, 11#8, 13#8, 9#8] : Word)[k]

/-- Row `r` of the product of a column with the matrix whose row `r` is `base` rotated right by `r`. -/
def columnProduct (base a : Fin 4 → Byte) (r : Fin 4) : Byte := rowSum fun k => multiply (base (k - r)) (a k)

theorem getElem_mixColumnForward (a : Fin 4 → Byte) (r : Fin 4) :
    (mixColumnForward (a 0) (a 1) (a 2) (a 3))[r] = columnProduct (matrixBase .forward) a r := by
  simp only [columnProduct, multiply_comm _ (a _), mixColumnForward, rom_mul2, rom_mul3]
  fin_cases r <;> simp [rowSum, matrixBase, -zero_sub]

theorem getElem_mixColumnInverse (a : Fin 4 → Byte) (r : Fin 4) :
    (mixColumnInverse (a 0) (a 1) (a 2) (a 3))[r] = columnProduct (matrixBase .inverse) a r := by
  simp only [columnProduct, multiply_comm _ (a _), mixColumnInverse, rom_mul9, rom_mul11, rom_mul13, rom_mul14]
  fin_cases r <;> simp [rowSum, matrixBase, -zero_sub]

@[simp] theorem matrixAt_mixColumns (d : Direction) (B : Block) (r c : Fin 4) :
    matrixAt (mixColumns d B) r c = columnProduct (matrixBase d) (fun k => matrixAt B k c) r := by
  cases d with
  | forward => exact (matrixAt_mapColumns _ B r c).trans (getElem_mixColumnForward (fun k => matrixAt B k c) r)
  | inverse => exact (matrixAt_mapColumns _ B r c).trans (getElem_mixColumnInverse (fun k => matrixAt B k c) r)

/-- The matrices of the two directions are inverse. -/
theorem rowSum_matrixBase_opposite (d : Direction) : ∀ r j : Fin 4,
    (rowSum fun k => multiply (matrixBase (opposite d) (k - r)) (matrixBase d (j - k))) =
      if j = r then 1#8 else 0#8 := by
  cases d <;> decide

/-- Every row of a matrix has the sum 1. -/
theorem rowSum_matrixBase (d : Direction) : ∀ r : Fin 4, (rowSum fun k => matrixBase d (k - r)) = 1#8 := by
  cases d <;> decide

/-- The product with two matrices one after the other is the product with the product of the matrices. -/
theorem columnProduct_columnProduct (base base' a : Fin 4 → Byte) (r : Fin 4) :
    columnProduct base' (columnProduct base a) r =
      rowSum fun j => multiply (rowSum fun k => multiply (base' (k - r)) (base (j - k))) (a j) := by
  simp only [columnProduct, multiply_rowSum, rowSum_multiply, multiply_assoc]
  exact rowSum_comm _

theorem columnProduct_opposite (d : Direction) (a : Fin 4 → Byte) (r : Fin 4) :
    columnProduct (matrixBase (opposite d)) (columnProduct (matrixBase d) a) r = a r := by
  simp only [columnProduct_columnProduct, rowSum_matrixBase_opposite, rowSum_multiply_one]

theorem columnProduct_xor (base a b : Fin 4 → Byte) (r : Fin 4) :
    columnProduct base (fun k => a k ^^^ b k) r = columnProduct base a r ^^^ columnProduct base b r := by
  simp only [columnProduct, multiply_xor_right, rowSum_xor]

/-- A column of equal bytes is multiplied by the sum of the row. -/
theorem columnProduct_const (d : Direction) (v : Byte) (r : Fin 4) :
    columnProduct (matrixBase d) (fun _ => v) r = v := by
  rw [columnProduct, ← rowSum_multiply, rowSum_matrixBase, one_multiply]

theorem mixColumns_leftInverse (d : Direction) : Function.LeftInverse (mixColumns (opposite d)) (mixColumns d) :=
  fun B => block_ext_matrix fun r c => by
    simp only [matrixAt_mixColumns]
    exact columnProduct_opposite d (fun k => matrixAt B k c) r

theorem mixColumns_addRoundKey (d : Direction) (A B : Block) :
    mixColumns d (addRoundKey A B) = addRoundKey (mixColumns d A) (mixColumns d B) :=
  block_ext_matrix fun r c => by simp [columnProduct_xor]

/-- An output column is made of the input column at the same place (R148 (b)). -/
theorem matrixAt_mixColumns_congr (d : Direction) {A B : Block} {c : Fin 4}
    (h : ∀ r, matrixAt A r c = matrixAt B r c) (r : Fin 4) :
    matrixAt (mixColumns d A) r c = matrixAt (mixColumns d B) r c := by
  simp only [matrixAt_mixColumns, h]

theorem matrixAt_mixColumns_of_const (d : Direction) {B : Block} {c : Fin 4} {v : Byte} (h : ∀ r, matrixAt B r c = v)
    (r : Fin 4) : matrixAt (mixColumns d B) r c = v := by
  simp only [matrixAt_mixColumns, h, columnProduct_const]

theorem matrixAt_zero (r c : Fin 4) : matrixAt Block.zero r c = 0#8 :=
  Block.getElem_zero _ _

/-- Settles O47: each law is one of the product of a column with the matrix. -/
theorem mixColumnsLaws : Obligations.MixColumnsLaws :=
  ⟨fun d _ _ _ h => matrixAt_mixColumns_congr d h,
    fun B => ⟨mixColumns_leftInverse .forward B, mixColumns_leftInverse .inverse B⟩,
    mixColumns_addRoundKey,
    fun d => block_ext_matrix fun r c =>
      (matrixAt_mixColumns_of_const d (fun r => matrixAt_zero r c) r).trans (matrixAt_zero r c).symm,
    fun d _ _ _ h => matrixAt_mixColumns_of_const d h⟩

end Sys2Proof.Machine
end

section
/-! PROOF. The commands on the state register: LDST, RDST, the round transforms and ADDRK (43_round_transforms.md R135 to
R154). -/

namespace Sys2Proof.Machine

/-! ## LDST and RDST (R136, R137) -/

/-- Settles O23: LDST needs nothing, so a running engine accepts it. -/
theorem ldstCommand : Obligations.LdstCommand :=
  fun _ => ⟨exec_of_halted .ldst, command_of_running_free (State.accepted .ldst)⟩

theorem exec_rdst (s : State) :
    exec .rdst s = command { st := true } (fun s => s.accept (busOfBlock s.STATE)) s := rfl

/-- Settles O24: RDST needs a block and nothing else. -/
theorem rdstCommand : Obligations.RdstCommand := by
  refine fun s => ⟨exec_of_halted .rdst, fun hf hs => ?_, fun hf hs => ?_⟩
  · have hraise : admission { st := true } s = .raise .noState := by simp [admission_of_running _ hf, hs]
    rw [exec_rdst]
    exact command_of_admission_raise _ hraise
  · rw [exec_rdst]
    exact command_of_met _ hf rfl (by simp) (fun _ => hs)

/-! ## The round transforms (R140, R141, R144, R145, R149, R150) -/

/-- A command that is a round transform follows the rule of one. -/
theorem transformRule_of_exec {i : Instr} {f g : Block → Block} (hi : ∀ s, exec i s = transform g s)
    (hg : ∀ B, g B = f B) : TransformRule i f :=
  fun s => ⟨exec_of_halted i, fun hf hs => (hi s).trans (transform_of_empty g hf hs),
    fun hf hs => hg s.STATE ▸ (hi s).trans (transform_of_loaded g hf hs)⟩

/-- Settles O25: SubBytes is the table, byte by byte. -/
theorem subbytesCommands : Obligations.SubbytesCommands :=
  ⟨transformRule_of_exec (fun _ => rfl) (fun _ => rfl), transformRule_of_exec (fun _ => rfl) (fun _ => rfl)⟩

/-- The table `SR` of R142. -/
theorem shiftRows_forward_listing (B : Block) : shiftRows .forward B =
    #v[B[0], B[5], B[10], B[15], B[4], B[9], B[14], B[3], B[8], B[13], B[2], B[7], B[12], B[1], B[6], B[11]] := rfl

/-- The table `ISR` of R142. -/
theorem shiftRows_inverse_listing (B : Block) : shiftRows .inverse B =
    #v[B[0], B[13], B[10], B[7], B[4], B[1], B[14], B[11], B[8], B[5], B[2], B[15], B[12], B[9], B[6], B[3]] := rfl

/-- Settles O26: the rotation of the rows gives the index tables. -/
theorem shiftrowsCommands : Obligations.ShiftrowsCommands :=
  ⟨transformRule_of_exec (fun _ => rfl) shiftRows_forward_listing,
    transformRule_of_exec (fun _ => rfl) shiftRows_inverse_listing⟩

/-- MixColumns byte by byte: byte `i` stands in row `i mod 4` of column `i / 4`. -/
theorem mixColumns_eq_ofFn (d : Direction) (B : Block) : mixColumns d B = Block.ofFn fun i =>
    columnProduct (matrixBase d) (fun k => B[4 * (i.val / 4) + k.val]'(by omega)) ⟨i.val % 4, by omega⟩ := by
  refine block_ext_matrix fun r c => ?_
  have hrow : (r.val + 4 * c.val) % 4 = r.val := by omega
  have hcol : (r.val + 4 * c.val) / 4 = c.val := by omega
  rw [matrixAt_mixColumns]
  simp [matrixAt, hrow, hcol, Nat.add_comm]

/-- Settles O27: the tables of the engine hold the products with the entries of the matrix. -/
theorem mixcolsCommands : Obligations.MixcolsCommands :=
  ⟨transformRule_of_exec (fun _ => rfl) (mixColumns_eq_ofFn .forward),
    transformRule_of_exec (fun _ => rfl) (mixColumns_eq_ofFn .inverse)⟩

/-! ## ADDRK (R153) -/

theorem exec_addrk_of_gt {idx : BitVec 4} (h : 10 < idx.toNat) (s : State) : exec (.addrk idx) s = refuse .idx s := by
  rw [exec, execAddrk, roundKeyNumber_of_gt h]

theorem exec_addrk_of_le {idx : BitVec 4} (h : idx.toNat ≤ 10) (s : State) :
    exec (.addrk idx) s = command { rk := true, st := true }
      (fun s => (s.setSTATE (addRoundKey s.STATE (s.RK[idx.toNat]'(by omega)))).accept zeroBus) s := by
  rw [exec, execAddrk, roundKeyNumber_of_le h]
  rfl

theorem exec_addrk_of_met {idx : BitVec 4} (h : idx.toNat ≤ 10) {s : State} (hf : s.FAULT = 0#3)
    (hkey : s.RK_VALID = true) (hs : s.ST_VALID = true) :
    exec (.addrk idx) s =
      .next ((s.setSTATE (addRoundKey s.STATE (s.RK[idx.toNat]'(by omega)))).accept zeroBus) :=
  (exec_addrk_of_le h s).trans (command_of_met _ hf rfl (fun _ => hkey) (fun _ => hs))

/-- Settles O28: the index decides before admission, and admission looks at the key before the block. -/
theorem addrkCommand : Obligations.AddrkCommand := by
  refine fun s idx => ⟨exec_of_halted (.addrk idx), fun hf hidx => ?_, fun hf hidx hkey => ?_,
    fun hf hidx hkey hs => ?_, fun hidx hf hkey hs => exec_addrk_of_met hidx hf hkey hs⟩
  · rw [exec_addrk_of_gt hidx]
    exact refuse_of_running .idx hf
  · have hraise : admission { rk := true, st := true } s = .raise .noKey := by simp [admission_of_running _ hf, hkey]
    rw [exec_addrk_of_le hidx]
    exact command_of_admission_raise _ hraise
  · have hraise : admission { rk := true, st := true } s = .raise .noState := by
      simp [admission_of_running _ hf, hkey, hs]
    rw [exec_addrk_of_le hidx]
    exact command_of_admission_raise _ hraise

/-! ## Commands that undo each other (R154) -/

/-- A transform command is accepted on a loaded engine, and so is the next one, which undoes it. -/
theorem transform_undone {f g : Block → Block} (h : Function.LeftInverse g f) {s : State} (hf : s.FAULT = 0#3)
    (hs : s.ST_VALID = true) :
    ∃ t u, transform f s = .next t ∧ transform g t = .next u ∧ u.STATE = s.STATE ∧ u.FAULT = 0#3 :=
  ⟨_, _, transform_of_loaded f hf hs, transform_of_loaded g hf hs, h s.STATE, hf⟩

/-- Settles O48: both commands are accepted, and their functions on blocks undo each other. -/
theorem transformCommandsUndoEachOther : Obligations.TransformCommandsUndoEachOther :=
  fun _ hf hs => ⟨
    transform_undone (subBytes_leftInverse .forward) hf hs, transform_undone (subBytes_leftInverse .inverse) hf hs,
    transform_undone (shiftRows_leftInverse .forward) hf hs, transform_undone (shiftRows_leftInverse .inverse) hf hs,
    transform_undone (mixColumns_leftInverse .forward) hf hs, transform_undone (mixColumns_leftInverse .inverse) hf hs,
    fun _ hidx hkey => ⟨_, _, exec_addrk_of_met hidx hf hkey hs, exec_addrk_of_met hidx hf hkey hs,
      addRoundKey_addRoundKey _ _, hf⟩⟩

end Sys2Proof.Machine
end

section
/-! PROOF. The cipher pipeline (44_cipher_pipeline.md R160 to R168): Encrypt and Decrypt stage by stage, that they are inverse,
the commands ENCRYPT and DECRYPT, and the sequences of single transforms that compute the same. -/

namespace Sys2Proof.Machine

/-! ## The stages (R160 to R163) -/

section
variable (P C : Block) (RK : Schedule)

theorem encStages_one : encStages P RK 1 (by omega) = addRoundKey P RK[0] := rfl

theorem encStages_middle {i : Nat} (h : 1 ≤ i ∧ i ≤ 9) : encStages P RK (i + 1) (by omega) =
    addRoundKey (mixColumns .forward (shiftRows .forward (subBytes .forward (encStages P RK i (by omega))))) RK[i] := by
  have hfirst : (⟨i, by omega⟩ : Fin 11) ≠ 0 := Fin.ne_of_val_ne (by change i ≠ 0; omega)
  have hlast : (⟨i, by omega⟩ : Fin 11) ≠ 10 := Fin.ne_of_val_ne (by change i ≠ 10; omega)
  rw [encStages, encStage, if_neg hfirst, if_neg hlast]

theorem encryptBlock_eq_last_stage : encryptBlock P RK =
    addRoundKey (shiftRows .forward (subBytes .forward (encStages P RK 10 (by omega)))) RK[10] := rfl

theorem decStages_one : decStages C RK 1 (by omega) = addRoundKey C RK[10] := rfl

theorem decStages_middle {j : Nat} (h : 1 ≤ j ∧ j ≤ 9) : decStages C RK (j + 1) (by omega) =
    mixColumns .inverse
      (addRoundKey (subBytes .inverse (shiftRows .inverse (decStages C RK j (by omega)))) RK[10 - j]) := by
  have hfirst : (⟨j, by omega⟩ : Fin 11) ≠ 0 := Fin.ne_of_val_ne (by change j ≠ 0; omega)
  have hlast : (⟨j, by omega⟩ : Fin 11) ≠ 10 := Fin.ne_of_val_ne (by change j ≠ 10; omega)
  rw [decStages, decStage, if_neg hfirst, if_neg hlast]

theorem decryptBlock_eq_last_stage : decryptBlock C RK =
    addRoundKey (subBytes .inverse (shiftRows .inverse (decStages C RK 10 (by omega)))) RK[0] := rfl

end

/-- Settles O51, by induction on the number of stages. -/
theorem encryptRunsElevenStages : Obligations.EncryptRunsElevenStages := by
  intro RK b hfirst hmiddle hlast
  have hstages (n : Nat) (h : n ≤ 9) : encStages (b 0) RK (n + 1) (by omega) = b (n + 1) := by
    induction n with
    | zero => rw [hfirst, encStages_one]
    | succ n ih => rw [hmiddle (n + 1) (by omega), encStages_middle _ _ (by omega), ih (by omega)]
  rw [hlast, encryptBlock_eq_last_stage, hstages 9 (by omega)]

/-- Settles O52, by induction on the number of stages. -/
theorem decryptRunsElevenStages : Obligations.DecryptRunsElevenStages := by
  intro RK b hfirst hmiddle hlast
  have hstages (n : Nat) (h : n ≤ 9) : decStages (b 0) RK (n + 1) (by omega) = b (n + 1) := by
    induction n with
    | zero => rw [hfirst, decStages_one]
    | succ n ih => rw [hmiddle (n + 1) (by omega), decStages_middle _ _ (by omega), ih (by omega)]
  rw [hlast, decryptBlock_eq_last_stage, hstages 9 (by omega)]

/-! ## Decrypt undoes Encrypt (R164) -/

/-- A decrypt stage takes back the rotation and the substitution of an encrypt stage, the last first. -/
theorem subBytes_shiftRows_undone (B : Block) :
    subBytes .inverse (shiftRows .inverse (shiftRows .forward (subBytes .forward B))) = B :=
  (congrArg _ (shiftRows_leftInverse .forward _)).trans (subBytes_leftInverse .forward B)

/-- Decryption walks back: after its first `j + 1` stages it holds the block of the encryption before the last `j + 1`, with
the bytes substituted and the rows rotated. -/
theorem decStages_encryptBlock (P : Block) (RK : Schedule) {j m : Nat} (h : j + m = 9) :
    decStages (encryptBlock P RK) RK (j + 1) (by omega) =
      shiftRows .forward (subBytes .forward (encStages P RK (m + 1) (by omega))) := by
  induction j generalizing m with
  | zero =>
    obtain rfl : m = 9 := by omega
    rw [decStages_one, encryptBlock_eq_last_stage, addRoundKey_addRoundKey]
  | succ j ih =>
    have hkey : 10 - (j + 1) = m + 1 := by omega
    rw [decStages_middle _ _ (by omega), ih (m := m + 1) (by omega), subBytes_shiftRows_undone,
      encStages_middle _ _ (by omega)]
    simp only [hkey, addRoundKey_addRoundKey]
    exact mixColumns_leftInverse .forward _

theorem decryptBlock_leftInverse (RK : Schedule) :
    Function.LeftInverse (decryptBlock · RK) (encryptBlock · RK) := fun P => by
  simp only [decryptBlock_eq_last_stage]
  rw [decStages_encryptBlock P RK (j := 9) (m := 0) rfl, subBytes_shiftRows_undone, encStages_one,
    addRoundKey_addRoundKey]

theorem finite_block : Finite Block :=
  Finite.of_injective busOfBlock (Function.LeftInverse.injective blockOfBus_busOfBlock)

/-- There are finitely many blocks, so the one-sided inverse is two-sided. -/
theorem decryptBlock_rightInverse (RK : Schedule) :
    Function.RightInverse (decryptBlock · RK) (encryptBlock · RK) :=
  have := finite_block
  have hinv := decryptBlock_leftInverse RK
  hinv.rightInverse_of_surjective (Finite.surjective_of_injective hinv.injective)

/-- Settles O53: the master contract is the case of the schedule of a key. -/
theorem decryptInvertsEncrypt : Obligations.DecryptInvertsEncrypt :=
  ⟨fun p k => decryptBlock_leftInverse (keyExpansion k) p,
    fun b RK => ⟨decryptBlock_leftInverse RK b, decryptBlock_rightInverse RK b⟩⟩

/-! ## ENCRYPT and DECRYPT (R166, R167) -/

/-- A command that answers a cipher of the operand and the schedule, and loses the block, follows the rule of one. -/
theorem cipherRule_of_exec {i : Instr} {f : Block → Schedule → Block}
    (hi : ∀ s, exec i s = command { rk := true }
      (fun s => (s.loseSTATE.setST_VALID false).accept (busOfBlock (f s.operand s.RK))) s) : CipherRule i f := by
  refine fun s => ⟨exec_of_halted i, fun hf hkey => ?_, fun hf hkey => ⟨s.loseSTATE.STATE, s.draws + 1, ?_⟩⟩
  · have hraise : admission { rk := true } s = .raise .noKey := by simp [admission_of_running _ hf, hkey]
    rw [hi]
    exact command_of_admission_raise _ hraise
  · rw [hi]
    exact command_of_met _ hf rfl (fun _ => hkey) (by simp)

/-- Settles O29: the cipher of ENCRYPT is Encrypt. -/
theorem encryptCommand : Obligations.EncryptCommand := cipherRule_of_exec fun _ => rfl

/-- Settles O30: the cipher of DECRYPT is Decrypt. -/
theorem decryptCommand : Obligations.DecryptCommand := cipherRule_of_exec fun _ => rfl

/-! ## A program of accepted commands -/

/-- The state after the engine has accepted a command with its data operand. -/
def State.issue (s : State) (c : Instr × Bus) : State := State.accepted c.1 (s.present (encode c.1) c.2)

theorem accepted_setHost (i : Instr) (s : State) (rest : List HostMove) :
    State.accepted i (s.setHost rest) = (State.accepted i s).setHost rest := by
  cases i <;> rfl

/-- With a program to run, one step takes its first command, if that is accepted. -/
theorem step_withProgram {s : State} {c : Instr × Bus} (h : admission (Instr.needs c.1) s = .accepted) (p : Program) :
    step (s.withProgram (c :: p)) = .next ((s.issue c).withProgram p) := by
  let s' := (s.withProgram p).present (encode c.1) c.2
  calc step (s.withProgram (c :: p)) = runCommand s' := step_of_issue rfl
    _ = exec c.1 s' := runCommand_of_decode (decode_encode c.1)
    _ = command (Instr.needs c.1) (State.accepted c.1) s' := exec_eq_command c.1 s'
    _ = .next (State.accepted c.1 s') := command_of_admission_accepted _ h
    _ = .next ((s.issue c).withProgram p) := congrArg _ (accepted_setHost c.1 (s.present (encode c.1) c.2) _)

theorem run_succ_of_next {M : Host.Core} {s t : M.State} (h : M.step s = .next t) (k : Nat) :
    M.run (k + 1) s = M.run k t := by
  rw [Host.Core.run, h]

theorem run_withProgram_cons {s : State} {c : Instr × Bus} (h : admission (Instr.needs c.1) s = .accepted)
    (p : Program) (k : Nat) : core.run (k + 1) (s.withProgram (c :: p)) = core.run k ((s.issue c).withProgram p) := by
  have hstep : core.step (s.withProgram (c :: p)) = .next ((s.issue c).withProgram p) := step_withProgram h p
  exact run_succ_of_next hstep k

/-! ## The single transforms (R168) -/

/-- A running engine with a block and the schedule `K`. -/
def State.ReadyWith (K : Schedule) (s : State) : Prop :=
  s.FAULT = 0#3 ∧ s.ST_VALID = true ∧ s.RK_VALID = true ∧ s.RK = K

/-- A command on the state register: RDST, a round transform, or ADDRK with a legal index. -/
def onSTATE (i : Instr) : Bool := readsSTATE i && !badIndex i

theorem admission_of_ready {K : Schedule} {s : State} (h : s.ReadyWith K) {i : Instr} (hi : onSTATE i = true) :
    admission (Instr.needs i) s = .accepted := by
  obtain ⟨hf, hs, hkey, _⟩ := h
  have hidx : badIndex i = false := by simpa using (Bool.and_eq_true_iff.mp hi).2
  rw [← responseCode_eq_zero_iff]
  simp [responseCode, hf, hs, hkey, hidx]

theorem readyWith_issue {K : Schedule} {s : State} (h : s.ReadyWith K) {i : Instr} (hi : onSTATE i = true) (d : Bus) :
    (s.issue (i, d)).ReadyWith K := by
  obtain ⟨hf, hs, hkey, hK⟩ := h
  cases i with
  | gfmul | keyexp | ldst | rdrk | encrypt | decrypt => simp [onSTATE, readsSTATE] at hi
  | _ => exact ⟨hf, hs, hkey, hK⟩

/-- The state after the engine has accepted commands one after the other, each with the same data operand. -/
def State.issueAll (s : State) (d : Bus) (cs : List Instr) : State := cs.foldl (fun s i => s.issue (i, d)) s

theorem issueAll_append (s : State) (d : Bus) (cs cs' : List Instr) :
    s.issueAll d (cs ++ cs') = (s.issueAll d cs).issueAll d cs' :=
  List.foldl_append

theorem readyWith_issueAll {K : Schedule} {s : State} (h : s.ReadyWith K) {cs : List Instr}
    (hcs : ∀ i ∈ cs, onSTATE i = true) (d : Bus) : (s.issueAll d cs).ReadyWith K :=
  List.foldlRecOn cs _ h fun _ hs i hi => readyWith_issue hs (hcs i hi) d

/-- Commands on the state register run to their end on a ready engine. -/
theorem run_of_ready {K : Schedule} {cs : List Instr} (hcs : ∀ i ∈ cs, onSTATE i = true) (d : Bus) {s : State}
    (h : s.ReadyWith K) :
    core.run cs.length (s.withProgram (cs.map fun i => (i, d))) = .next ((s.issueAll d cs).setHost []) := by
  induction cs generalizing s with
  | nil => rfl
  | cons i cs ih =>
    obtain ⟨hi, hcs⟩ := List.forall_mem_cons.mp hcs
    exact (run_withProgram_cons (admission_of_ready h hi) _ _).trans (ih hcs (readyWith_issue h hi d))

/-- The accepted commands replace the block by `f` of the block and the schedule, and leave the schedule. -/
def Computes (cs : List Instr) (f : Block → Schedule → Block) : Prop :=
  ∀ (s : State) (d : Bus), (s.issueAll d cs).STATE = f s.STATE s.RK ∧ (s.issueAll d cs).RK = s.RK

/-- Stages one after the other compute the functions of the stages one after the other. -/
theorem computes_flatMap {stage : Fin 11 → List Instr} {f : Fin 11 → Block → Schedule → Block}
    (h : ∀ j, Computes (stage j) (f j)) (js : List (Fin 11)) :
    Computes (js.flatMap stage) fun B K => js.foldl (fun B j => f j B K) B := by
  induction js with
  | nil => exact fun _ _ => ⟨rfl, rfl⟩
  | cons j js ih =>
    intro s d
    obtain ⟨hB, hK⟩ := h j s d
    obtain ⟨hBs, hKs⟩ := ih (s.issueAll d (stage j)) d
    rw [List.flatMap_cons, issueAll_append, hBs, hKs, hB, hK]
    exact ⟨rfl, rfl⟩

/-- The commands of an encrypt stage (R161). -/
def encStageCommands (i : Fin 11) : List Instr :=
  if i = 0 then [.addrk 0#4]
  else if i = 10 then [.subbytesF, .shiftrowsF, .addrk 10#4]
  else [.subbytesF, .shiftrowsF, .mixcolsF, .addrk (BitVec.ofNat 4 i)]

theorem computes_encStage (i : Fin 11) : Computes (encStageCommands i) fun B K => encStage i B K[i] := by
  fin_cases i <;> exact fun _ _ => ⟨rfl, rfl⟩

/-- The commands of a decrypt stage (R163). -/
def decStageCommands (j : Fin 11) : List Instr :=
  if j = 0 then [.addrk 10#4]
  else if j = 10 then [.shiftrowsI, .subbytesI, .addrk 0#4]
  else [.shiftrowsI, .subbytesI, .addrk (BitVec.ofNat 4 (10 - j)), .mixcolsI]

theorem computes_decStage (j : Fin 11) : Computes (decStageCommands j) fun B K => decStage j B K[10 - j.val] := by
  fin_cases j <;> exact fun _ _ => ⟨rfl, rfl⟩

/-- The commands of the eleven encrypt stages, 40 in all (R168). -/
def encCommands : List Instr := (List.finRange 11).flatMap encStageCommands

/-- The commands of the eleven decrypt stages, 40 in all (R168). -/
def decCommands : List Instr := (List.finRange 11).flatMap decStageCommands

theorem computes_encryptBlock : Computes encCommands encryptBlock :=
  computes_flatMap computes_encStage (List.finRange 11)

theorem computes_decryptBlock : Computes decCommands decryptBlock :=
  computes_flatMap computes_decStage (List.finRange 11)

/-- A block loaded, changed by commands on the state register and read: every command is accepted. -/
theorem run_load_compute_read {cs : List Instr} (hcs : ∀ i ∈ cs, onSTATE i = true) {f : Block → Schedule → Block}
    (hcompute : Computes cs f) {s : State} (hf : s.FAULT = 0#3) (hkey : s.RK_VALID = true) (d : Bus) :
    ∃ t, core.run (Instr.ldst :: (cs ++ [.rdst])).length
        (s.withProgram ((Instr.ldst :: (cs ++ [.rdst])).map fun i => (i, d))) = .next t ∧
      t.response = some ⟨0#3, busOfBlock (f (blockOfBus d) s.RK)⟩ ∧ t.STATE = f (blockOfBus d) s.RK ∧
      t.ReadyWith s.RK ∧ t.host = [] := by
  have hldst : admission (Instr.needs .ldst) s = .accepted := admission_of_running _ hf
  have hready : (s.issue (.ldst, d)).ReadyWith s.RK := ⟨hf, rfl, hkey, rfl⟩
  have hcs' : ∀ i ∈ cs ++ [.rdst], onSTATE i = true := 
    List.forall_mem_append.mpr ⟨hcs, List.forall_mem_singleton.mpr rfl⟩
  have hrun := (run_withProgram_cons (c := (.ldst, d)) hldst _ _).trans (run_of_ready hcs' d hready)
  have hSTATE : ((s.issue (.ldst, d)).issueAll d cs).STATE = f (blockOfBus d) s.RK := (hcompute _ d).1
  refine ⟨_, hrun, ?_, ?_, readyWith_issueAll hready hcs' d, rfl⟩ <;>
    rw [issueAll_append, ← hSTATE] <;> rfl

/-- Settles O55: every command of a sequence is accepted, and the commands of a stage compute the stage. -/
theorem singleTransformsEqualTheCipher : Obligations.SingleTransformsEqualTheCipher := by
  unfold Obligations.SingleTransformsEqualTheCipher
  intro forwardRound inverseRound encryption decryption answersAs s hf hkey
  have answers {cs : List Instr} {cipher : Instr} {f : Block → Schedule → Block} (hcs : ∀ i ∈ cs, onSTATE i = true)
      (hlength : (Instr.ldst :: (cs ++ [.rdst])).length = 42) (hcompute : Computes cs f)
      (hcipher : CipherRule cipher f) : answersAs (.ldst :: (cs ++ [.rdst])) cipher s := by
    obtain ⟨t, hrun, hresponse, hSTATE, ⟨hft, hst, hkeyt, hRK⟩, hhost⟩ :=
      run_load_compute_read hcs hcompute hf hkey s.din
    obtain ⟨_, _, haccepted⟩ := hcipher s
    obtain ⟨_, _, hexec⟩ := haccepted hf hkey
    rw [hlength] at hrun
    exact ⟨t, _, _, hrun, hexec, hresponse, rfl, by rw [hSTATE, blockOfBus_busOfBlock], hst, rfl, hft, hRK, hkeyt, hhost⟩
  exact ⟨answers (cs := encCommands) (by decide) rfl computes_encryptBlock encryptCommand,
    answers (cs := decCommands) (by decide) rfl computes_decryptBlock decryptCommand⟩

end Sys2Proof.Machine
end

section
/-! PROOF. Exceptions (60_exceptions.md): the code every byte is answered with, what a refusal does, how a halted engine is
left, and the outcomes of R192. One relation says how an answer and its code go together; every command and every byte on the
ports is answered in that relation with the code of R176. -/

namespace Sys2Proof.Machine

/-! ## An answer and its code -/

/-- The answers of a command from `s`, each with its code: an accepted command, the answer of a halted engine (R179), a fault
entry (R178). -/
inductive AnsweredWith (s : State) : BitVec 3 → Host.Outcome State Fault Refusal → Prop
  | accepted (i : Instr) : AnsweredWith s okCode (.next (s.accepted i))
  | halted (h : s.FAULT ≠ 0#3) : AnsweredWith s haltedCode (.next s.refuseHalted)
  | raised (c : Cause) (h : s.FAULT = 0#3) : AnsweredWith s c.code (.next (s.raiseFault c))

section
variable {s : State} {code : BitVec 3} {o : Host.Outcome State Fault Refusal}

/-- The response carries the code. -/
theorem AnsweredWith.response_err (h : AnsweredWith s code o) : ∃ t r, o = .next t ∧ t.response = some r ∧ r.err = code := by
  cases h <;> exact ⟨_, _, rfl, rfl, rfl⟩

/-- A refusal by an engine without a fault is a fault entry with its code. -/
theorem AnsweredWith.fault_entry (h : AnsweredWith s code o) (hf : s.FAULT = 0#3) (hcode : code ≠ 0#3) :
    o = .next ((s.setFAULT code).respond code zeroBus) := by
  cases h with
  | accepted i => exact absurd rfl hcode
  | halted hn => exact absurd hf hn
  | raised c _ => rfl

end

/-- A command is answered with the code of its first failing check. -/
theorem exec_answeredWith (i : Instr) (s : State) : AnsweredWith s (responseCode i s) (exec i s) := by
  rw [responseCode_eq_admissionCode, exec_eq_command]
  rcases command_cases (Instr.needs i) (State.accepted i) s with ⟨ha, hc⟩ | ⟨ha, hc⟩ | ⟨c, ha, hc⟩ <;> rw [ha, hc]
  · exact .accepted i
  · exact .halted (admission_halted ha)
  · exact .raised c (admission_raise ha)

/-! ## The code of a byte -/

theorem byteCode_of_halted (b : Byte) {s : State} (h : s.FAULT ≠ 0#3) : byteCode b s = haltedCode :=
  if_pos h

theorem byteCode_of_decode {b : Byte} {i : Instr} (h : decode b = .ok i) (s : State) : byteCode b s = responseCode i s := by
  by_cases hf : s.FAULT = 0#3
  · rw [byteCode, if_neg (not_not_intro hf), h]
  · rw [byteCode_of_halted b hf, responseCode, if_pos hf]
    rfl

theorem byteCode_of_reserved {b : Byte} (h : reservedByte b = true) {s : State} (hf : s.FAULT = 0#3) :
    byteCode b s = Cause.rsvd.code := by
  obtain ⟨e, he⟩ := (decode_eq_error_iff b).mpr h
  rw [byteCode, if_neg (not_not_intro hf), he]
  rfl

/-- A halted engine refuses whatever stands on the ports (R179). -/
theorem runCommand_of_halted {s : State} (h : s.FAULT ≠ 0#3) : runCommand s = .next s.refuseHalted := by
  rcases runCommand_cases s with ⟨i, _, hr⟩ | ⟨_, _, hr⟩
  · rw [hr, exec_of_halted i h]
  · rw [hr, refuse_of_halted _ h]

/-- The byte on the ports is answered with the code of its first failing check. -/
theorem runCommand_answeredWith (s : State) : AnsweredWith s (byteCode s.cmd s) (runCommand s) := by
  by_cases hf : s.FAULT = 0#3
  · rcases runCommand_cases s with ⟨i, hd, hr⟩ | ⟨e, hd, hr⟩
    · rw [hr, byteCode_of_decode hd]
      exact exec_answeredWith i s
    · rw [hr, byteCode_of_reserved ((decode_eq_error_iff s.cmd).mp ⟨e, hd⟩) hf, refuse_of_running _ hf]
      exact .raised .rsvd hf
  · rw [byteCode_of_halted s.cmd hf, runCommand_of_halted hf]
    exact .halted hf

/-- An issued byte is answered so too: its code does not depend on the ports or on the moves that are left. -/
theorem step_answeredWith {s : State} {b : Byte} {d : Bus} {rest : List HostMove} (h : s.host = .issue b d :: rest) :
    AnsweredWith ((s.setHost rest).present b d) (byteCode b s) (step s) := by
  rw [step_of_issue h]
  exact runCommand_answeredWith ((s.setHost rest).present b d)

/-! ## Admission and faults -/

/-- Settles O7: the byte is put on the ports and refused there. -/
theorem haltedEngineRefusesEveryByte : Obligations.HaltedEngineRefusesEveryByte := by
  intro s b d rest hf hs
  calc step s = runCommand ((s.setHost rest).present b d) := step_of_issue hs
    _ = .next ((s.setHost rest).present b d).refuseHalted := runCommand_of_halted hf

/-- Settles O15: an issued byte and a command are answered with their code. -/
theorem admissionOrder : Obligations.AdmissionOrder :=
  ⟨fun _ _ _ _ hs => (step_answeredWith hs).response_err, fun i s => (exec_answeredWith i s).response_err⟩

/-- Settles O16: without a fault recorded, an answer with a code other than 0 is a fault entry. -/
theorem faultEntryWritesOnlyFault : Obligations.FaultEntryWritesOnlyFault :=
  fun _ _ _ _ hs hf hcode => (step_answeredWith hs).fault_entry hf hcode

/-- Settles O17, by the cases of a step: idling, sampling and the answer of a halted engine leave `FAULT` as it was. -/
theorem onlyResetLeavesTheHaltedCondition : Obligations.OnlyResetLeavesTheHaltedCondition := by
  intro s t h hf hne
  rcases step_next h with ⟨_, rfl⟩ | ⟨b, d, rest, _, hr⟩ | ⟨rest, _, rfl⟩ | ⟨p, rest, hs, rfl⟩
  · exact absurd rfl hne
  · have hp : ((s.setHost rest).present b d).FAULT ≠ 0#3 := hf
    obtain rfl : _ = t := by simpa [runCommand_of_halted hp] using hr
    exact absurd rfl hne
  · exact absurd rfl hne
  · exact ⟨rfl, rfl, rfl, p, rest, hs⟩

/-! ## Outcomes (R192) -/

/-- A byte whose code is that of a fault gives this fault. -/
theorem runOutcome_of_faultOfCode {s : State} {b : Byte} {d : Bus} {rest : List HostMove} (h : s.host = .issue b d :: rest)
    {f : Fault} (hf : faultOfCode (byteCode b s) = some f) : runOutcome s = .fault f := by
  obtain ⟨t, r, ht, hr, herr⟩ := (step_answeredWith h).response_err
  simp only [runOutcome, h, ht, hr, herr, hf]

/-- A byte with code 0 gives the step's own next state. -/
theorem runOutcome_of_accepted {s : State} {b : Byte} {d : Bus} {rest : List HostMove} (h : s.host = .issue b d :: rest)
    (hcode : byteCode b s = 0#3) : ∃ t, runOutcome s = .next t ∧ step s = .next t := by
  obtain ⟨t, r, ht, hr, herr⟩ := (step_answeredWith h).response_err
  have hnone : faultOfCode r.err = none := by rw [herr, hcode]; rfl
  exact ⟨t, by simp only [runOutcome, h, ht, hr, hnone], ht⟩

/-- Settles O19: the byte's code decides the outcome, and it is that of the halted engine, of a reserved byte or of the decoded
command. -/
theorem runOutcomeOfEachResponse : Obligations.RunOutcomeOfEachResponse := by
  intro s b d rest hs
  refine ⟨fun hf => ?_, fun hf hb => ?_, fun i hd => ?_⟩
  · exact runOutcome_of_faultOfCode hs (by rw [byteCode_of_halted b hf]; rfl)
  · exact runOutcome_of_faultOfCode hs (by rw [byteCode_of_reserved hb hf]; rfl)
  · rw [← byteCode_of_decode hd s]
    have refused {code : BitVec 3} {f : Fault} (hcf : faultOfCode code = some f) (hcode : byteCode b s = code) :
        runOutcome s = .fault f := runOutcome_of_faultOfCode hs (hcode ▸ hcf)
    exact ⟨runOutcome_of_accepted hs, refused rfl, refused rfl, refused rfl, refused rfl⟩

/-! ## Between commands -/

/-- Settles O9: without a move the step holds the state, and a sampled status takes the move only. -/
theorem engineHoldsStateBetweenCommands : Obligations.EngineHoldsStateBetweenCommands :=
  ⟨fun _ => step_of_idle, fun _ _ => step_of_sample⟩

end Sys2Proof.Machine
end

section
/-! PROOF. Reset and the order of commands (70_reset_and_hazards.md): what reset clears and that nothing else does, and that a
host that keeps the order of R198 sees no fault. After a reset the commands the host has issued say which valid bits are 1, so
the order of R198 asks for what admission asks for. -/

namespace Sys2Proof.Machine

/-! ## Reset (R195) -/

/-- A schedule that was valid before a step and is not after it was lost by reset. -/
theorem reset_of_RK_VALID_cleared {s t : State} (h : step s = .next t) (hs : s.RK_VALID = true) (ht : t.RK_VALID = false) :
    ∃ presented rest, s.host = .reset presented :: rest := by
  rcases step_keeps_or_writes h with ⟨_, _, _, hkey⟩ | ⟨i, d, rest, _, rfl⟩ | hreset
  · simp [hkey, hs] at ht
  · rcases writes_RK_or_keyexp ((s.setHost rest).present (encode i) d) i with ⟨_, hkey⟩ | rfl
    · simp [hkey, hs] at ht
    · simp [State.writes] at ht
  · exact hreset

/-- Settles O8: a step that clears `FAULT` leaves the halted condition, and no command clears `RK_VALID`. -/
theorem resetClearsFaultAndValidBits : Obligations.ResetClearsFaultAndValidBits := by
  refine ⟨fun s presented rest hs => ⟨_, step_of_reset hs, rfl, rfl, rfl, rfl, by simp⟩, fun s t h hcleared => ?_⟩
  rcases hcleared with ⟨hf, hft⟩ | ⟨hkey, hkeyt⟩
  · obtain ⟨_, _, _, hreset⟩ := onlyResetLeavesTheHaltedCondition s t h hf (hft.trans_ne hf.symm)
    exact hreset
  · exact reset_of_RK_VALID_cleared h hkey hkeyt

/-! ## The order of commands (R198) -/

/-- A running engine whose valid bits are what the commands accepted since the last reset, the most recent first, leave. -/
def State.Follows (past : List Instr) (s : State) : Prop :=
  s.FAULT = 0#3 ∧ s.ST_VALID = loadedBy past ∧ s.RK_VALID = keyedBy past

/-- An accepted command changes the valid bits as the history of commands records it. -/
theorem follows_issue {past : List Instr} {s : State} (h : s.Follows past) (c : Instr × Bus) :
    (s.issue c).Follows (c.1 :: past) := by
  obtain ⟨hf, hst, hkey⟩ := h
  obtain ⟨i, d⟩ := c
  refine ⟨by simpa [State.issue] using hf, ?_, ?_⟩
  · cases i with
    | ldst | encrypt | decrypt => rfl
    | _ => exact hst
  · cases i with
    | keyexp => rfl
    | _ => exact hkey

/-- The order of R198 asks for a legal index, for a KEYEXP before a command that reads `RK`, and for an LDST before one that
reads `STATE`. -/
theorem orderAllows_iff (past : List Instr) (i : Instr) : orderAllows past i = true ↔
    badIndex i = false ∧ (readsRK i = true → keyedBy past = true) ∧ (readsSTATE i = true → loadedBy past = true) := by
  cases i with
  | rdrk idx | addrk idx => simp [orderAllows, legalIndex, badIndex, readsRK, readsSTATE, and_assoc]
  | _ => simp [orderAllows, badIndex, readsRK, readsSTATE]

theorem admission_of_orderAllows {past : List Instr} {s : State} (h : s.Follows past) {i : Instr}
    (hi : orderAllows past i = true) : admission (Instr.needs i) s = .accepted := by
  obtain ⟨hf, hst, hkey⟩ := h
  obtain ⟨hidx, hrk, hrs⟩ := (orderAllows_iff past i).mp hi
  have hvalidRK : (readsRK i && !s.RK_VALID) = false := by simpa [hkey] using hrk
  have hvalidSTATE : (readsSTATE i && !s.ST_VALID) = false := by simpa [hst] using hrs
  rw [← responseCode_eq_zero_iff]
  simp [responseCode, hf, hidx, hvalidRK, hvalidSTATE]

/-- A program allowed after the commands the engine has accepted runs to a finished state. -/
theorem run_of_programAllowed {p : Program} {past : List Instr} {s : State} (h : s.Follows past)
    (hp : programAllowed past p = true) : ∃ t, core.run p.length (s.withProgram p) = .next t ∧ State.Finished t := by
  induction p generalizing past s with
  | nil =>
    obtain ⟨hf, _⟩ := h
    exact ⟨_, rfl, rfl, hf⟩
  | cons c p ih =>
    obtain ⟨hc, hp⟩ := Bool.and_eq_true_iff.mp hp
    have haccepted := admission_of_orderAllows h hc
    rw [List.length_cons, run_withProgram_cons haccepted]
    exact ih (follows_issue h c) hp

/-- Settles O18, by induction on the program: a fresh engine follows the empty history. -/
theorem hostKeepingTheOrderNeverFaults : Obligations.HostKeepingTheOrderNeverFaults :=
  fun _ _ hfresh hp => run_of_programAllowed (past := []) hfresh hp

end Sys2Proof.Machine
end

section
/-! PROOF. The step is total (10_state.md R31), and the two cipher commands undo each other (44_cipher_pipeline.md R164). -/

namespace Sys2Proof.Machine

/-! ## The step is total -/

theorem runCommand_total (s : State) : ∃ t, runCommand s = .next t := by
  rcases runCommand_answers s with ⟨_, _, _, hr⟩ | ⟨_, hr⟩ | ⟨_, _, hr⟩ <;> exact ⟨_, hr⟩

/-- Settles O10, by the host's next move: only an issued byte asks for more than taking the move. -/
theorem everyStateHasANextState : Obligations.EveryStateHasANextState := by
  intro s
  cases hm : s.host with
  | nil => exact ⟨_, step_of_idle hm⟩
  | cons move rest =>
    cases move with
    | issue b d =>
      rw [step_of_issue hm]
      exact runCommand_total _
    | sampleStatus => exact ⟨_, step_of_sample hm⟩
    | reset p => exact ⟨_, step_of_reset hm⟩

/-! ## Cipher commands that undo each other (R164) -/

/-- An accepted cipher command answers its cipher of the operand, and leaves the schedule, its valid bit and `FAULT`. -/
theorem cipher_answers {i : Instr} {f : Block → Schedule → Block} (hi : CipherRule i f) {s : State} (hf : s.FAULT = 0#3)
    (hkey : s.RK_VALID = true) : ∃ t, exec i s = .next t ∧
      t.response = some ⟨0#3, busOfBlock (f (blockOfBus s.din) s.RK)⟩ ∧
      t.RK = s.RK ∧ t.FAULT = 0#3 ∧ t.RK_VALID = true := by
  obtain ⟨_, _, haccepted⟩ := hi s
  obtain ⟨_, _, ht⟩ := haccepted hf hkey
  exact ⟨_, ht, rfl, rfl, hf, hkey⟩

/-- A second cipher command is accepted on the answer of the first (it keeps what admission reads), and undoes it when
their ciphers are inverse. -/
theorem cipher_undone {i j : Instr} {f g : Block → Schedule → Block} (hi : CipherRule i f) (hj : CipherRule j g)
    (hinv : ∀ K B, g (f B K) K = B) {s : State} (hf : s.FAULT = 0#3) (hkey : s.RK_VALID = true) :
    ∃ t r u, exec i s = .next t ∧ t.response = some r ∧
      exec j { t with din := r.dout } = .next u ∧ u.response = some ⟨0#3, s.din⟩ := by
  obtain ⟨t, ht, hr, hRK, hft, hkeyt⟩ := cipher_answers hi hf hkey
  let answer := busOfBlock (f (blockOfBus s.din) s.RK)
  obtain ⟨u, hu, hru, _⟩ := cipher_answers hj (s := { t with din := answer }) hft hkeyt
  have hundone : busOfBlock (g (blockOfBus answer) t.RK) = s.din := by
    rw [hRK, blockOfBus_busOfBlock, hinv, busOfBlock_blockOfBus]
  exact ⟨t, _, u, ht, hr, hu, hundone ▸ hru⟩

/-- Settles O54: both commands follow the rule of a cipher, and their ciphers are inverse for every schedule. -/
theorem cipherCommandsUndoEachOther : Obligations.CipherCommandsUndoEachOther :=
  fun _ hf hkey => ⟨cipher_undone encryptCommand decryptCommand decryptBlock_leftInverse hf hkey,
    cipher_undone decryptCommand encryptCommand decryptBlock_rightInverse hf hkey⟩

end Sys2Proof.Machine
end
